-- ==== Sys2Proof/Word.lean ====
section
/-! DEFINITION. The words of OSC-ACQ (spec/00_scope.md R8, R10; spec/30_encoding.md R71, R72, R81):
everything the spec treats as bits. Bit 0 is the least significant bit. -/

namespace Sys2Proof

/-- A sample, or a cell of the capture store (R8, R23). -/
abbrev Byte := BitVec 8

/-- A 16-bit unsigned value: `IMM16`, `PERIOD`, `COUNT`, a row or a column (R8, R75). -/
abbrev Half := BitVec 16

/-- A command word, or a register of the index space (R37, R75). -/
abbrev Word := BitVec 32

/-- A 64-bit cycle record or response word (R72, R81). -/
abbrev Long := BitVec 64

end Sys2Proof
end

