-- ==== Sys2Proof/Config.lean ====
section
/-! DEFINITION. The implementation parameters of OSC-ACQ (spec/00_scope.md R7) as one record, the
reference configuration of spec/95_test_vectors.md, and the free values the spec leaves open.
A configuration is a value the machine is built with: `State` carries it and no step changes it. -/

namespace Sys2Proof

/-- `POL_A`, `POL_B` (R7, R180): the active edge of a pin. -/
inductive Polarity where
  | rising
  | falling
  deriving DecidableEq, Repr

/-- `MASKED_POLICY` (R7, R140, R141): what a completion does while masked. -/
inductive MaskedPolicy where
  | drop
  | latchOne
  deriving DecidableEq, Repr

/-- `WORD_BYTE_ORDER` (R51): how a bus binding outside the block lays a word out as bytes.
DESIGN CHOICE: these two orders (log entry 14). -/
inductive ByteOrder where
  | little
  | big
  deriving DecidableEq, Repr

/-- The parameters of R7, and R51's `WORD_BYTE_ORDER`. `DEPTH` is `width + 1`. -/
structure Config where
  /-- `WIDTH`: capture capacity. -/
  width : Nat
  /-- `N_ITEMS`: menu items and range lines. -/
  nItems : Nat
  /-- `PLOT_BOTTOM`: row of the plot baseline. -/
  plotBottom : Nat
  /-- `PLOT_TOP`: row of the top of the plot (host-side; only the legality of R9 reads it). -/
  plotTop : Nat
  /-- `POL_A`: active edge of pin A. -/
  polA : Polarity
  /-- `POL_B`: active edge of pin B. -/
  polB : Polarity
  /-- `RANGE_RESET`: range lines at power-on. -/
  rangeReset : Word
  /-- `MASKED_POLICY`. -/
  maskedPolicy : MaskedPolicy
  /-- `CONV_LAT`: the Converter's latency in cycles (environment, R126). -/
  convLat : Nat
  /-- `WORD_BYTE_ORDER` of a bus binding (R51). -/
  wordByteOrder : ByteOrder
  deriving DecidableEq, Repr

/-- The reference configuration of spec/95_test_vectors.md. It gives no `PLOT_TOP` and no
`WORD_BYTE_ORDER`: DESIGN CHOICE 0 and little (notes/assumptions/1.md). No rule of the block reads
either. -/
def Config.reference : Config :=
  { width := 4, nItems := 3, plotBottom := 200, plotTop := 0, polA := .rising, polB := .rising,
    rangeReset := 1#32, maskedPolicy := .drop, convLat := 2, wordByteOrder := .little }

/-- FREE VALUE (R23, spec/93 U1): what cell `a` holds after the power-on numbered `epoch` until it is
written. An independent draw for each cell, fixed for that run. Log entry 3. -/
opaque Config.powerOnCell (epoch a : Nat) : Byte

/-- FREE VALUE (R106, R255, spec/93 U11): the environment's inputs (record bits 42:32: `PIN_B`,
`PIN_A`, `ADC_VALID`, `ADC_DATA`) in a cycle that `State.inputs` does not fix. Log entry 5. -/
opaque Config.freeEvents (epoch cycle : Nat) : BitVec 11

end Sys2Proof
end

