-- ==== Sys2Proof/Syntax.lean ====
section
/-! DEFINITION. The operations of OSC-ACQ: the eleven commands of spec/30_encoding.md R76 and the
three events of R82, one constructor per row of spec/opcode_table.json. -/

namespace Sys2Proof

/-- One row of spec/opcode_table.json each, with the operands R76, R77 and R82 give it. -/
inductive Instr where
  /-- `NOP` (R103). -/
  | nop
  /-- `CFGPER p` (R120): `p` is `IMM16`, the trigger period in cycles. -/
  | cfgper (p : Half)
  /-- `START` (R121). -/
  | start
  /-- `MASK` (R142). -/
  | mask
  /-- `UNMASK` (R143). -/
  | unmask
  /-- `CLEAR` (R144). -/
  | clear
  /-- `RDBUF a` (R145): `a` is `IMM16`, a cell address. -/
  | rdbuf (a : Half)
  /-- `RDREG idx` (R104): `idx` is `IMM16`, a register index. -/
  | rdreg (idx : Half)
  /-- `MAPROW d` (R161): `d` is `IMM16[7:0]`, a sample. -/
  | maprow (d : Byte)
  /-- `SEGMENT k` (R162): `k` is `IMM16`, a pair index. -/
  | segment (k : Half)
  /-- `HILITE r` (R201): `r` is `IMM16`, a 0-based menu row. -/
  | hilite (r : Half)
  /-- `COMPLETION` (R140, R141) of sample `d` = `ADC_DATA`. -/
  | completion (d : Byte)
  /-- `EDGE_A`: the active edge on pin A, which performs ADVANCE (R181). -/
  | edgeA
  /-- `EDGE_B`: the active edge on pin B, which performs CONFIRM (R182). -/
  | edgeB
  deriving DecidableEq, Repr

/-- R70: an operation the host issues on the command port, as against an event. -/
def Instr.isCommand : Instr → Bool
  | .nop => true
  | .cfgper _ => true
  | .start => true
  | .mask => true
  | .unmask => true
  | .clear => true
  | .rdbuf _ => true
  | .rdreg _ => true
  | .maprow _ => true
  | .segment _ => true
  | .hilite _ => true
  | .completion _ => false
  | .edgeA => false
  | .edgeB => false

end Sys2Proof
end

