-- ==== Sys2Proof/Decode.lean ====
section
/-! DEFINITION. Encodings (spec/30_encoding.md R72, R75 to R80, R82; spec/40_cycle_and_port.md R101;
spec/opcode_table.json): the command word and the cycle record, each read by a total decoder that
rejects by name and written by an encoder; the byte layouts of a bus binding (R51). -/

namespace Sys2Proof

/-! ## The command word (R75) -/

/-- `OPC`, bits 31:24 (R75). -/
def opcField (w : Word) : Byte := w.extractLsb' 24 8

/-- `RSV`, bits 23:16 (R75). -/
def rsvField (w : Word) : Byte := w.extractLsb' 16 8

/-- `IMM16`, bits 15:0 (R75). -/
def immField (w : Word) : Half := w.extractLsb' 0 16

/-- A field of a word, its bit 0 at bit `lo`, zeros elsewhere. -/
def atWord {n : Nat} (lo : Nat) (v : BitVec n) : Word := v.setWidth 32 <<< lo

/-- A field of a record or response word, its bit 0 at bit `lo`, zeros elsewhere. -/
def atLong {n : Nat} (lo : Nat) (v : BitVec n) : Long := v.setWidth 64 <<< lo

/-- A command word with `RSV = 0` (R75). -/
def makeWord (opc : Byte) (imm : Half) : Word := atWord 24 opc ||| atWord 0 imm

/-- Why a command word spells no command (R78, R79). -/
inductive CommandError where
  /-- `OPC` is reserved: `FLT_OPCODE` (R105). -/
  | opcode
  /-- A field the command does not use is not zero: `FLT_RSV_BITS` (R78). -/
  | rsvBits
  deriving DecidableEq, Repr

/-- A command without operand: all of `IMM16` must be zero (R78). -/
def noOperand (imm : Half) (i : Instr) : Except CommandError Instr :=
  if imm = 0#16 then .ok i else .error .rsvBits

/-- MAPROW's operand: `IMM16[15:8]` must be zero (R78). -/
def sampleOperand (imm : Half) : Except CommandError Instr :=
  if imm.extractLsb' 8 8 = 0#8 then .ok (.maprow (imm.extractLsb' 0 8)) else .error .rsvBits

/-- R76 with R78's checks, once `OPC <= 0x0A` and `RSV = 0` are known. -/
def selectCommand (opc : Byte) (imm : Half) : Except CommandError Instr :=
  if opc = 0x00#8 then noOperand imm .nop
  else if opc = 0x01#8 then .ok (.cfgper imm)
  else if opc = 0x02#8 then noOperand imm .start
  else if opc = 0x03#8 then noOperand imm .mask
  else if opc = 0x04#8 then noOperand imm .unmask
  else if opc = 0x05#8 then noOperand imm .clear
  else if opc = 0x06#8 then .ok (.rdbuf imm)
  else if opc = 0x07#8 then .ok (.rdreg imm)
  else if opc = 0x08#8 then sampleOperand imm
  else if opc = 0x09#8 then .ok (.segment imm)
  else .ok (.hilite imm)

/-- R101: the checks of a command word in order; the first that fails is reported. The command's own
operand check is made when it is executed. -/
def decodeCommand (w : Word) : Except CommandError Instr :=
  if 0x0A < (opcField w).toNat then .error .opcode
  else if rsvField w ≠ 0#8 then .error .rsvBits
  else selectCommand (opcField w) (immField w)

/-- The word of a command (R75, R76). An event has no command word: its cycle's word is NOP's. -/
def commandWord : Instr → Word
  | .nop => makeWord 0x00#8 0#16
  | .cfgper p => makeWord 0x01#8 p
  | .start => makeWord 0x02#8 0#16
  | .mask => makeWord 0x03#8 0#16
  | .unmask => makeWord 0x04#8 0#16
  | .clear => makeWord 0x05#8 0#16
  | .rdbuf a => makeWord 0x06#8 a
  | .rdreg idx => makeWord 0x07#8 idx
  | .maprow d => makeWord 0x08#8 (d.setWidth 16)
  | .segment k => makeWord 0x09#8 k
  | .hilite r => makeWord 0x0A#8 r
  | .completion _ => 0#32
  | .edgeA => 0#32
  | .edgeB => 0#32

/-! ## The cycle record (R72) -/

/-- The inputs of one cycle, R72's fields. -/
structure CycleRecord where
  /-- `CMD`, bits 31:0. -/
  cmd : Word
  /-- `ADC_DATA`, bits 39:32. -/
  adcData : Byte
  /-- `ADC_VALID`, bit 40. -/
  adcValid : Bool
  /-- `PIN_A`, bit 41. -/
  pinA : Bool
  /-- `PIN_B`, bit 42. -/
  pinB : Bool
  deriving DecidableEq, Repr

/-- Why a 64-bit word is no cycle record (R72). -/
inductive RecordError where
  /-- A one in bits 63:43. -/
  | highBits
  deriving DecidableEq, Repr

/-- R72: the fields of a record; a word with a one in bits 63:43 "is not a record". -/
def decodeRecord (w : Long) : Except RecordError CycleRecord :=
  if w.extractLsb' 43 21 = 0#21 then
    .ok { cmd := w.extractLsb' 0 32, adcData := w.extractLsb' 32 8, adcValid := w.getLsbD 40,
          pinA := w.getLsbD 41, pinB := w.getLsbD 42 }
  else .error .highBits

/-- R72: the record with these fields. -/
def encodeRecord (r : CycleRecord) : Long :=
  atLong 0 r.cmd ||| atLong 32 r.adcData ||| atLong 40 (BitVec.ofBool r.adcValid)
    ||| atLong 41 (BitVec.ofBool r.pinA) ||| atLong 42 (BitVec.ofBool r.pinB)

/-- R82 (b), R180: the change from `prev` to `pin` is the active edge of polarity `pol`. -/
def edgeSeen (pol : Polarity) (prev pin : Bool) : Bool :=
  match pol with
  | .rising => !prev && pin
  | .falling => prev && !pin

/-- R82: the events a record selects against the sampled pin history, in R100's order. -/
def recordEvents (polA polB : Polarity) (prevA prevB : Bool) (r : CycleRecord) : List Instr :=
  (if r.adcValid then [.completion r.adcData] else [])
    ++ (if edgeSeen polA prevA r.pinA then [.edgeA] else [])
    ++ (if edgeSeen polB prevB r.pinB then [.edgeB] else [])

/-! ## One operation of the opcode table -/

/-- The two formats of spec/opcode_table.json: `CMD32`, a command word; `CYC64`, a cycle record. -/
inductive Encoding where
  | cmd32 (w : Word)
  | cyc64 (w : Long)
  deriving DecidableEq, Repr

/-- Why an encoding spells no operation. -/
inductive DecodeError where
  | command (e : CommandError)
  | record (e : RecordError)
  deriving DecidableEq, Repr

/-- A table row of format `CMD32`. -/
def decodeCmd32 (w : Word) : Except DecodeError Instr :=
  match decodeCommand w with
  | .ok i => .ok i
  | .error e => .error (.command e)

/-- A table row of format `CYC64`: the record's first event, or its command where it selects no event.
The pin bits are read as the rows' own conditions for the default polarity say (`POL = Rising`,
`PREV = 0`): a one is the edge. DESIGN CHOICE, log entry 7: the machine itself
(Machine/Cycle.lean) reads every part of a record, against the pin history it holds. -/
def decodeCyc64 (w : Long) : Except DecodeError Instr :=
  match decodeRecord w with
  | .error e => .error (.record e)
  | .ok r =>
    match recordEvents .rising .rising false false r with
    | e :: _ => .ok e
    | [] => decodeCmd32 r.cmd

/-- The operation an encoding spells, total on both formats. -/
def decode : Encoding → Except DecodeError Instr
  | .cmd32 w => decodeCmd32 w
  | .cyc64 w => decodeCyc64 w

/-- The record of an event alone: NOP's word, the event's own bits, every other bit zero. -/
def eventRecord (valid : Bool) (data : Byte) (a b : Bool) : CycleRecord :=
  { cmd := 0#32, adcData := data, adcValid := valid, pinA := a, pinB := b }

/-- The encoding of each operation, from R76, R82 and spec/opcode_table.json's `match` (the edges' for
the default polarity `Rising`). -/
def encode : Instr → Encoding
  | .nop => .cmd32 (commandWord .nop)
  | .cfgper p => .cmd32 (commandWord (.cfgper p))
  | .start => .cmd32 (commandWord .start)
  | .mask => .cmd32 (commandWord .mask)
  | .unmask => .cmd32 (commandWord .unmask)
  | .clear => .cmd32 (commandWord .clear)
  | .rdbuf a => .cmd32 (commandWord (.rdbuf a))
  | .rdreg idx => .cmd32 (commandWord (.rdreg idx))
  | .maprow d => .cmd32 (commandWord (.maprow d))
  | .segment k => .cmd32 (commandWord (.segment k))
  | .hilite r => .cmd32 (commandWord (.hilite r))
  | .completion d => .cyc64 (encodeRecord (eventRecord true d false false))
  | .edgeA => .cyc64 (encodeRecord (eventRecord false 0#8 true false))
  | .edgeB => .cyc64 (encodeRecord (eventRecord false 0#8 false true))

/-- The host's reading of a table row's bits: 32 bits are a command word, more are a cycle record. -/
def decodeTableWord (nbits w : Nat) : Option Instr :=
  match decode (if nbits ≤ 32 then .cmd32 (BitVec.ofNat 32 w) else .cyc64 (BitVec.ofNat 64 w)) with
  | .ok i => some i
  | .error _ => none

/-! ## A bus binding's bytes (R51, `WORD_BYTE_ORDER`) -/

/-- A 32-bit word as four bytes, the first at the lowest address. -/
def wordBytes (o : ByteOrder) (w : Word) : List Byte :=
  let le := [w.extractLsb' 0 8, w.extractLsb' 8 8, w.extractLsb' 16 8, w.extractLsb' 24 8]
  match o with
  | .little => le
  | .big => le.reverse

/-- The word of four bytes, the first at the lowest address. -/
def wordOfBytes (o : ByteOrder) (b0 b1 b2 b3 : Byte) : Word :=
  match o with
  | .little => atWord 0 b0 ||| atWord 8 b1 ||| atWord 16 b2 ||| atWord 24 b3
  | .big => atWord 24 b0 ||| atWord 16 b1 ||| atWord 8 b2 ||| atWord 0 b3

/-- A 64-bit response word as eight bytes, the first at the lowest address. -/
def longBytes (o : ByteOrder) (w : Long) : List Byte :=
  match o with
  | .little => wordBytes .little (w.extractLsb' 0 32) ++ wordBytes .little (w.extractLsb' 32 32)
  | .big => wordBytes .big (w.extractLsb' 32 32) ++ wordBytes .big (w.extractLsb' 0 32)

/-- Why a byte stream of a bus binding yields no command. -/
inductive StreamError where
  /-- Fewer than four bytes are left. -/
  | tooShort
  /-- The word spells no command. -/
  | command (e : CommandError)
  deriving DecidableEq, Repr

/-- The next command of a byte stream of a bus binding, with the bytes left; total on any bytes. -/
def decodeBytes (o : ByteOrder) : List Byte → Except StreamError (Instr × List Byte)
  | b0 :: b1 :: b2 :: b3 :: rest =>
    match decodeCommand (wordOfBytes o b0 b1 b2 b3) with
    | .ok i => .ok (i, rest)
    | .error e => .error (.command e)
  | _ => .error .tooShort

end Sys2Proof
end

