-- ==== Sys2Proof/Machine/State.lean ====
section
/-! DEFINITION. The state of OSC-ACQ (spec/10_state.md R20 to R36), its ports (spec/30_encoding.md R71),
the model's own bookkeeping, the reasons a step stops, and the state after power-on
(spec/70_reset_and_hazards.md R270). Plain data throughout. -/

namespace Sys2Proof.Machine

/-- `viewMode` (R32). -/
inductive View where
  | scope
  | menu
  deriving DecidableEq, Repr

/-- The capture store's written cells, as (address, byte) pairs with strictly rising addresses. An
unlisted address has not been written since power-on: it has no value here, and `readCell`
(Machine/Ops.lean) answers the free value `Config.powerOnCell` for it. Log entry 3. -/
abbrev Memory := List Host.Cell

/-- One cycle's inputs: `RST_N` (R71) and the cycle record's word (R72). -/
structure CycleInput where
  /-- `RST_N`: false in a reset cycle (active low). -/
  rstN : Bool
  /-- The record; a word with a one in bits 63:43 is refused (R235). -/
  word : Long
  deriving DecidableEq, Repr

/-- The output ports of the last completed cycle (R71, R102). -/
structure Outputs where
  /-- `RESP` (R81). -/
  resp : Long
  /-- `TRIG`. -/
  trig : Bool
  /-- `FULL_OUT`. -/
  fullOut : Bool
  /-- `VIEW_OUT` (true = Menu). -/
  viewOut : Bool
  /-- `RANGE_OUT`: line `k` is bit `k`. -/
  rangeOut : Word
  deriving DecidableEq, Repr

/-- The model faults of R232: a cycle whose command has no specified behaviour. Each records the cycle
number `t` and the command word `w` (R230) and ends the run (R231). All are SAFE: the machine stops
where the spec says that what the hardware does is not specified (spec/93 U2). -/
inductive Fault where
  /-- Code 1, `FLT_OPCODE`: raised in decoding a word whose `OPC` is `0x0B`..`0xFF` (R105). Safe. -/
  | opcode (t : Nat) (w : Word)
  /-- Code 2, `FLT_RSV_BITS`: raised in decoding a word with a one in an unused field (R101). Safe. -/
  | rsvBits (t : Nat) (w : Word)
  /-- Code 3, `FLT_PERIOD_ZERO`: raised by CFGPER 0 (R120). Safe. -/
  | periodZero (t : Nat) (w : Word)
  /-- Code 4, `FLT_NOT_CONFIGURED`: raised by START while stopped with `PERIOD = 0` (R121). Safe. -/
  | notConfigured (t : Nat) (w : Word)
  /-- Code 5, `FLT_BUF_ADDR`: raised by RDBUF above `WIDTH` (R145). Safe. -/
  | bufAddr (t : Nat) (w : Word)
  /-- Code 6, `FLT_SEG_INDEX`: raised by SEGMENT above `WIDTH - 2` (R162). Safe. -/
  | segIndex (t : Nat) (w : Word)
  /-- Code 7, `FLT_ROW_INDEX`: raised by HILITE of a row `>= N_ITEMS` (R201). Safe. -/
  | rowIndex (t : Nat) (w : Word)
  /-- Code 8, `FLT_REG_INDEX`: raised by RDREG of an index above 4 (R104). Safe. -/
  | regIndex (t : Nat) (w : Word)
  deriving DecidableEq, Repr

/-- What the model gives no meaning to. -/
inductive Refusal where
  /-- An operation with no meaning in this model yet: raised by no arm of `exec` any more. Safe. -/
  | notModelled (mnemonic : String)
  /-- The configuration is illegal (R9, R235): raised by the step. Safe. -/
  | illegalConfig
  /-- The cycle's word has a one in bits 63:43 and is not a record (R72, R235): raised by the step.
  Safe. -/
  | notARecord
  deriving DecidableEq, Repr

/-- The state vector of R20, with the parameters of R7, the ports of R71, and the model's bookkeeping. -/
structure State where
  /-- The parameters the machine is built with (R7); no step changes them. -/
  cfg : Config
  /-- `BUF[0..WIDTH]` (R23): the cells written since power-on. -/
  buf : Memory
  /-- `CURSOR`, 0..`WIDTH + 1` (R24). -/
  cursor : Nat
  /-- `MASKED` (R26). -/
  masked : Bool
  /-- `PEND_V` (R34); used only under `LatchOne`. -/
  pendV : Bool
  /-- `PEND_D` (R34); used only under `LatchOne`. -/
  pendD : Byte
  /-- `PERIOD` (R27). -/
  period : Half
  /-- `RUNNING` (R28). -/
  running : Bool
  /-- `COUNT` (R29). -/
  count : Half
  /-- `PREV_A` (R30). -/
  prevA : Bool
  /-- `PREV_B` (R30). -/
  prevB : Bool
  /-- `SELECTOR`, 0..`N_ITEMS` (R31). -/
  selector : Nat
  /-- `VIEW` (R32). -/
  view : View
  /-- `RANGE`, bit `k` = line `k`, zero from bit `N_ITEMS` on (R33). -/
  range : Word
  /-- `FAULT` (R35), model-only. -/
  fault : Option Fault
  /-- The cycle number `t` (R22), model-only: 0 in the first cycle after power-on. -/
  cycle : Nat
  /-- How many power-ons came before this one: the model's own counter, read by the free values only. -/
  epoch : Nat
  /-- The inputs of the cycles to come, the next cycle's first; past its end the environment is free. -/
  inputs : List CycleInput
  /-- The outputs of the last completed cycle. -/
  out : Outputs
  deriving DecidableEq, Repr

/-- R270's `PowerOn`, for the configuration, the power-on number and the inputs still to come. `PEND_D`
is unspecified: DESIGN CHOICE 0 (log entry 2). The registered outputs are those of the state itself
(log entry 4). -/
def State.powerOn (c : Config) (epoch : Nat) (inputs : List CycleInput) : State :=
  { cfg := c, buf := [], cursor := 0, masked := false, pendV := false, pendD := 0#8,
    period := 0#16, running := false, count := 0#16, prevA := true, prevB := true,
    selector := 0, view := .scope, range := c.rangeReset, fault := none, cycle := 0,
    epoch := epoch, inputs := inputs,
    out := { resp := 0#64, trig := false, fullOut := false, viewOut := false,
             rangeOut := c.rangeReset } }

/-- The machine right after reset: R270 under the reference configuration (log entry 1), with no input
placed. -/
def State.reset : State := State.powerOn Config.reference 0 []

end Sys2Proof.Machine
end

