-- ==== Sys2Proof/Machine/Ops.lean ====
section
/-! DEFINITION. The shared operations over the state: outcomes in sequence, the capture store, the named
updates of single fields, raising a fault (spec/60_exceptions.md R230), one-hot patterns, the legality of
a configuration (spec/00_scope.md R9). OSC-ACQ has no trap entry and no return from one (R240, R241): a
fault is the only thing a command can raise, and it ends the run. -/

namespace Sys2Proof.Machine

/-! ## Outcomes -/

/-- The outcome of an operation or of a cycle. -/
abbrev Result := Host.Outcome State Fault Refusal

/-- One phase after another (R100): the later phase runs on the state the earlier one left, and not at
all after a fault (R230). -/
def andThen (o : Result) (f : State → Result) : Result :=
  match o with
  | .next s => f s
  | .fault r => .fault r
  | .refused r => .refused r

/-! ## One-hot patterns and configurations -/

/-- `onehot(k)` (R10): only bit `k`; 0 from 32 on, which no run reaches (DESIGN CHOICE, log entry 13). -/
def onehot (k : Nat) : Word := 1#32 <<< k

/-- Exactly one bit is set, and it is among bits `n-1..0` (R9, R42 (c)). -/
def isOnehot (n : Nat) (v : Word) : Bool := (List.range n).any (fun k => v == onehot k)

/-- R9, with R7's upper bound on `CONV_LAT` (DEDUCED, log entry 9). -/
def legalConfig (c : Config) : Bool :=
  decide (2 ≤ c.width) && decide (c.width ≤ 65535)
    && decide (1 ≤ c.nItems) && decide (c.nItems ≤ 32)
    && decide (127 ≤ c.plotBottom) && decide (c.plotBottom ≤ 65535)
    && decide (c.plotTop + 127 ≤ c.plotBottom)
    && isOnehot c.nItems c.rangeReset
    && decide (1 ≤ c.convLat) && decide (c.convLat ≤ 65535)

/-! ## The capture store -/

/-- The byte written last at `a`, none where nothing has been written since power-on. -/
def readMemory : Memory → Nat → Option Byte
  | [], _ => none
  | (k, b) :: m, a => if a = k then some b else if a < k then none else readMemory m a

/-- Write `v` at `a`, keeping the addresses strictly rising. -/
def writeMemory : Memory → Nat → Byte → Memory
  | [], a, v => [(a, v)]
  | (k, b) :: m, a, v =>
    if a = k then (a, v) :: m
    else if a < k then (a, v) :: (k, b) :: m
    else (k, b) :: writeMemory m a v

/-- The canonical form: every address of `m` is at least `lo`, and they rise strictly. -/
def risingFrom : Nat → Memory → Bool
  | _, [] => true
  | lo, (k, _) :: m => decide (lo ≤ k) && risingFrom (k + 1) m

/-- The store's canonical form. No entry can equal what an unlisted address reads as: that is no value. -/
def Memory.wf (m : Memory) : Bool := risingFrom 0 m

/-- `MemRead(a, 1)` = `BUF[a]` (R11). A cell never written since power-on holds a free value (R23, U1). -/
def readCell (s : State) (a : Nat) : Byte :=
  match readMemory s.buf a with
  | some b => b
  | none => Config.powerOnCell s.epoch a

/-- `MemWrite(a, 1, v)` (R11). -/
def storeCell (a : Nat) (v : Byte) (s : State) : State := { s with buf := writeMemory s.buf a v }

/-! ## Updates of single fields -/

/-- `CURSOR <- n`. -/
def setCursor (n : Nat) (s : State) : State := { s with cursor := n }

/-- `MASKED <- b`. -/
def setMasked (b : Bool) (s : State) : State := { s with masked := b }

/-- `PEND_V <- 1; PEND_D <- d`. -/
def latchPend (d : Byte) (s : State) : State := { s with pendV := true, pendD := d }

/-- `PEND_V <- 0`. -/
def dropPend (s : State) : State := { s with pendV := false }

/-- `PERIOD <- p`. -/
def setPeriod (p : Half) (s : State) : State := { s with period := p }

/-- `RUNNING <- 1; COUNT <- 0`. -/
def startClock (s : State) : State := { s with running := true, count := 0#16 }

/-- `COUNT <- n`. -/
def setCount (n : Half) (s : State) : State := { s with count := n }

/-- `PREV_A <- a; PREV_B <- b`. -/
def samplePins (a b : Bool) (s : State) : State := { s with prevA := a, prevB := b }

/-- `SELECTOR <- n`. -/
def setSelector (n : Nat) (s : State) : State := { s with selector := n }

/-- `VIEW <- v`. -/
def setView (v : View) (s : State) : State := { s with view := v }

/-- `RANGE <- v`. -/
def setRange (v : Word) (s : State) : State := { s with range := v }

/-- `RESP <- v` (R81). -/
def respond (v : Long) (s : State) : State := { s with out := { s.out with resp := v } }

/-- `TRIG <- b` (R102). -/
def setTrig (b : Bool) (s : State) : State := { s with out := { s.out with trig := b } }

/-- `FULL_OUT`, `VIEW_OUT` and `RANGE_OUT` of a cycle (R102). -/
def driveOutputs (full view : Bool) (range : Word) (s : State) : State :=
  { s with out := { s.out with fullOut := full, viewOut := view, rangeOut := range } }

/-- The next cycle's number (R22). -/
def nextCycle (s : State) : State := { s with cycle := s.cycle + 1 }

/-- The inputs from the next cycle on. -/
def popInput (s : State) : State := { s with inputs := s.inputs.tail }

/-- `FAULT <- r` (R230, R35): what the model records of a run that a fault ended. -/
def recordFault (r : Fault) (s : State) : State := { s with fault := some r }

/-! ## Faults -/

/-- `raise Fault(code, w)` in executing the command `i` (R11, R230): the cycle number and the command's
word are recorded, nothing is written. -/
def raiseFault (code : Nat → Word → Fault) (i : Instr) (s : State) : Result :=
  .fault (code s.cycle (commandWord i))

/-- The fault of a word that spells no command (R101). -/
def commandFault (e : CommandError) (t : Nat) (w : Word) : Fault :=
  match e with
  | .opcode => .opcode t w
  | .rsvBits => .rsvBits t w

/-- R232's code numbers. -/
def faultCode : Fault → Nat
  | .opcode _ _ => 1
  | .rsvBits _ _ => 2
  | .periodZero _ _ => 3
  | .notConfigured _ _ => 4
  | .bufAddr _ _ => 5
  | .segIndex _ _ => 6
  | .rowIndex _ _ => 7
  | .regIndex _ _ => 8

/-- The cycle a fault records (R230). -/
def faultCycle : Fault → Nat
  | .opcode t _ => t
  | .rsvBits t _ => t
  | .periodZero t _ => t
  | .notConfigured t _ => t
  | .bufAddr t _ => t
  | .segIndex t _ => t
  | .rowIndex t _ => t
  | .regIndex t _ => t

/-- The command word a fault records (R230). -/
def faultWord : Fault → Word
  | .opcode _ w => w
  | .rsvBits _ w => w
  | .periodZero _ w => w
  | .notConfigured _ w => w
  | .bufAddr _ w => w
  | .segIndex _ w => w
  | .rowIndex _ w => w
  | .regIndex _ w => w

end Sys2Proof.Machine
end

