-- ==== Sys2Proof/Machine/Flags.lean ====
section
/-! DEFINITION. The status flags (spec/10_state.md R25, R36) and the registers of the index space
(R37, R38). -/

namespace Sys2Proof.Machine

/-- `FULL = (CURSOR > WIDTH)` (R25); not stored. -/
def full (s : State) : Bool := decide (s.cfg.width < s.cursor)

/-- `VIEW` as a bit: Scope = 0, Menu = 1 (R83). -/
def viewBit (v : View) : Bool :=
  match v with
  | .scope => false
  | .menu => true

/-- STATUS (R38): FULL, MASKED, RUNNING, VIEW in bits 0 to 3; bits 31:4 read 0. -/
def statusWord (s : State) : Word :=
  atWord 0 (BitVec.ofBool (full s)) ||| atWord 1 (BitVec.ofBool s.masked)
    ||| atWord 2 (BitVec.ofBool s.running) ||| atWord 3 (BitVec.ofBool (viewBit s.view))

/-- The five registers of R37, none at a reserved index. Numbers that no run reaches are truncated to 32
bits (DESIGN CHOICE, log entry 13). -/
def registerValue (s : State) (idx : Nat) : Option Word :=
  if idx = 0 then some (statusWord s)
  else if idx = 1 then some (BitVec.ofNat 32 s.cursor)
  else if idx = 2 then some (s.period.setWidth 32)
  else if idx = 3 then some (BitVec.ofNat 32 s.selector)
  else if idx = 4 then some s.range
  else none

end Sys2Proof.Machine
end

