-- ==== Sys2Proof/Machine/Operands.lean ====
section
/-! DEFINITION. Operand forms (spec/30_encoding.md R77): everything is zero-extended, nothing is
sign-extended, scaled or shifted. -/

namespace Sys2Proof.Machine

/-- `zext(IMM16)` as a number (R77). -/
abbrev operandNat (imm : Half) : Nat := imm.toNat

/-- `zext_64` of a sample (R10, R81). -/
def zextByte (b : Byte) : Long := b.setWidth 64

/-- `zext_64` of a row or column (R10, R81). -/
def zextHalf (h : Half) : Long := h.setWidth 64

/-- `zext_64` of a register (R10, R81). -/
def zextWord (w : Word) : Long := w.setWidth 64

end Sys2Proof.Machine
end

