-- ==== Sys2Proof/Machine/CaptureBuffer.lean ====
section
/-! DEFINITION. CaptureBuffer (spec/42_capture_buffer.md): the append and the completion under both
policies (R140, R141), MASK (R142), UNMASK (R143), CLEAR (R144), RDBUF (R145). -/

namespace Sys2Proof.Machine

/-- The append (R140): dropped when full, else the sample goes to `BUF[CURSOR]` and the cursor rises. -/
def appendSample (v : Byte) (s : State) : State :=
  if full s then s else setCursor (s.cursor + 1) (storeCell s.cursor v s)

/-- R140, `MASKED_POLICY = Drop`, with `ADC_VALID = 1`. -/
def completeDrop (d : Byte) (s : State) : State :=
  if s.masked then s else appendSample d s

/-- R141, `MASKED_POLICY = LatchOne`, with `ADC_VALID = 1`. -/
def completeLatch (d : Byte) (s : State) : State :=
  if s.masked then latchPend d s else appendSample d (dropPend s)

/-- COMPLETION (R140, R141): phase 2 of a cycle with `ADC_VALID = 1`. -/
def execCompletion (d : Byte) (s : State) : Result :=
  match s.cfg.maskedPolicy with
  | .drop => .next (completeDrop d s)
  | .latchOne => .next (completeLatch d s)

/-- Phase 2 of a cycle with `ADC_VALID = 0` (R140, R141): under `LatchOne` a held completion is appended
once unmasked; under `Drop` nothing happens. -/
def serviceLatch (s : State) : State :=
  match s.cfg.maskedPolicy with
  | .drop => s
  | .latchOne => if !s.masked && s.pendV then appendSample s.pendD (dropPend s) else s

/-- MASK (R142). -/
def execMask (s : State) : Result := .next (respond 0#64 (setMasked true s))

/-- UNMASK (R143). -/
def execUnmask (s : State) : Result := .next (respond 0#64 (setMasked false s))

/-- CLEAR (R144): the cursor only; no cell is erased. -/
def execClear (s : State) : Result := .next (respond 0#64 (setCursor 0 s))

/-- RDBUF (R145): the cell, zero-extended; `FLT_BUF_ADDR` above `WIDTH`. -/
def execRdbuf (a : Half) (s : State) : Result :=
  if s.cfg.width < operandNat a then raiseFault .bufAddr (.rdbuf a) s
  else .next (respond (zextByte (readCell s (operandNat a))) s)

end Sys2Proof.Machine
end

