-- ==== Sys2Proof/Machine/CommandPort.lean ====
section
/-! DEFINITION. The two commands of no sub-unit (spec/40_cycle_and_port.md): NOP (R103), RDREG (R104). -/

namespace Sys2Proof.Machine

/-- NOP (R103): `RESP <- 0`. -/
def execNop (s : State) : Result := .next (respond 0#64 s)

/-- RDREG (R104): the register, zero-extended; `FLT_REG_INDEX` above index 4. -/
def execRdreg (idx : Half) (s : State) : Result :=
  match registerValue s (operandNat idx) with
  | some v => .next (respond (zextWord v) s)
  | none => raiseFault .regIndex (.rdreg idx) s

end Sys2Proof.Machine
end

