-- ==== Sys2Proof/Machine/InputController.lean ====
section
/-! DEFINITION. InputController (spec/44_input_controller.md): ADVANCE (R181) and CONFIRM (R182), raised
by the edge detector of R180 (`edgeSeen`, Decode.lean). No debounce (R183), no mask (R186). -/

namespace Sys2Proof.Machine

/-- ADVANCE's next selector (R181): from `N_ITEMS` it wraps to 1, never to 0. -/
def advanced (nItems sel : Nat) : Nat := if nItems ≤ sel then 1 else sel + 1

/-- CONFIRM's next view (R182). -/
def toggled (v : View) : View :=
  match v with
  | .scope => .menu
  | .menu => .scope

/-- EDGE_A performs ADVANCE (R181). `RANGE` follows in phase 4. -/
def execEdgeA (s : State) : Result := .next (setSelector (advanced s.cfg.nItems s.selector) s)

/-- EDGE_B performs CONFIRM (R182). -/
def execEdgeB (s : State) : Result := .next (setView (toggled s.view) s)

end Sys2Proof.Machine
end

