-- ==== Sys2Proof/Machine/MenuRange.lean ====
section
/-! DEFINITION. MenuRange (spec/45_menu_range.md): the range mux of phase 4 (R200) and HILITE (R201). -/

namespace Sys2Proof.Machine

/-- Phase 4 (R200): `RANGE <- onehot(SELECTOR - 1)` for `1 <= SELECTOR <= N_ITEMS`, else held. -/
def rangeUpdate (s : State) : State :=
  if 1 ≤ s.selector ∧ s.selector ≤ s.cfg.nItems then setRange (onehot (s.selector - 1)) s else s

/-- HILITE (R201): 1 exactly when row `r` is the selected row; `FLT_ROW_INDEX` for `r >= N_ITEMS`. -/
def execHilite (r : Half) (s : State) : Result :=
  if s.cfg.nItems ≤ operandNat r then raiseFault .rowIndex (.hilite r) s
  else .next (respond (if s.selector = operandNat r + 1 then 1#64 else 0#64) s)

end Sys2Proof.Machine
end

