-- ==== Sys2Proof/Machine/PixelMapper.lean ====
section
/-! DEFINITION. PixelMapper (spec/43_pixel_mapper.md): the row function (R160), MAPROW (R161), SEGMENT
(R162). -/

namespace Sys2Proof.Machine

/-- `row(s) = PLOT_BOTTOM - (s >> 1)` on naturals (R160). -/
def row (c : Config) (d : Byte) : Nat := c.plotBottom - d.toNat / 2

/-- A row as the 16-bit value R8 carries it as. -/
def rowHalf (c : Config) (d : Byte) : Half := BitVec.ofNat 16 (row c d)

/-- MAPROW (R161). -/
def execMaprow (d : Byte) (s : State) : Result := .next (respond (zextHalf (rowHalf s.cfg d)) s)

/-- SEGMENT's response (R162, R81): `y1, y0, x1, x0` from the most significant end. -/
def segmentResponse (s : State) (k : Nat) : Long :=
  atLong 0 (BitVec.ofNat 16 k) ||| atLong 16 (BitVec.ofNat 16 (k + 1))
    ||| atLong 32 (rowHalf s.cfg (readCell s k)) ||| atLong 48 (rowHalf s.cfg (readCell s (k + 1)))

/-- SEGMENT (R162): `FLT_SEG_INDEX` above `WIDTH - 2`. -/
def execSegment (k : Half) (s : State) : Result :=
  if s.cfg.width < operandNat k + 2 then raiseFault .segIndex (.segment k) s
  else .next (respond (segmentResponse s (operandNat k)) s)

end Sys2Proof.Machine
end

