-- ==== Sys2Proof/Machine/SampleClock.lean ====
section
/-! DEFINITION. SampleClock (spec/41_sample_clock.md): CFGPER (R120), START (R121), and the counter step
of phase 5 (R122). -/

namespace Sys2Proof.Machine

/-- CFGPER (R120): `PERIOD <- p`; `COUNT` and `RUNNING` stay; `FLT_PERIOD_ZERO` for 0. -/
def execCfgper (p : Half) (s : State) : Result :=
  if operandNat p = 0 then raiseFault .periodZero (.cfgper p) s
  else .next (respond 0#64 (setPeriod p s))

/-- START (R121): no effect while running; else `FLT_NOT_CONFIGURED` with `PERIOD = 0`, else the clock
starts with `COUNT = 0`. -/
def execStart (s : State) : Result :=
  if s.running then .next (respond 0#64 s)
  else if s.period.toNat = 0 then raiseFault .notConfigured .start s
  else .next (respond 0#64 (startClock s))

/-- R122's comparison, in 17 bits: `COUNT + 1 >= PERIOD`. -/
def periodReached (s : State) : Bool := decide (s.period.toNat ≤ s.count.toNat + 1)

/-- Phase 5 (R122), gated by `RUNNING` at the start of the cycle: the counter and `TRIG`. -/
def clockgen (runningAtStart : Bool) (s : State) : State :=
  if runningAtStart then
    if periodReached s then setTrig true (setCount 0#16 s)
    else setTrig false (setCount (s.count + 1#16) s)
  else setTrig false s

end Sys2Proof.Machine
end

