-- ==== Sys2Proof/Machine/Dispatch.lean ====
section
/-! DEFINITION. One arm per operation: phase 1 of a cycle for a command, the event's own effect for an
event (spec/40_cycle_and_port.md R100). -/

namespace Sys2Proof.Machine

def exec (i : Instr) (s : State) : Host.Outcome State Fault Refusal :=
  match i with
  | .nop => Sys2Proof.Machine.execNop s
  | .cfgper p => Sys2Proof.Machine.execCfgper p s
  | .start => Sys2Proof.Machine.execStart s
  | .mask => Sys2Proof.Machine.execMask s
  | .unmask => Sys2Proof.Machine.execUnmask s
  | .clear => Sys2Proof.Machine.execClear s
  | .rdbuf a => Sys2Proof.Machine.execRdbuf a s
  | .rdreg idx => Sys2Proof.Machine.execRdreg idx s
  | .maprow d => Sys2Proof.Machine.execMaprow d s
  | .segment k => Sys2Proof.Machine.execSegment k s
  | .hilite r => Sys2Proof.Machine.execHilite r s
  | .completion d => Sys2Proof.Machine.execCompletion d s
  | .edgeA => Sys2Proof.Machine.execEdgeA s
  | .edgeB => Sys2Proof.Machine.execEdgeB s

end Sys2Proof.Machine
end

