-- ==== Sys2Proof/Machine/Cycle.lean ====
section
/-! DEFINITION. One cycle (spec/40_cycle_and_port.md R100): the inputs of the cycle, the reset cycle, the
decoding of its command, and the phases in order, each on the state the one before left. Also where an
operation's bits are placed for the next cycle to run. -/

namespace Sys2Proof.Machine

/-! ## The cycle's inputs -/

/-- The record of a cycle that `State.inputs` does not fix: no command is issued (R74), the environment's
inputs are free (R106). Log entry 5. -/
def freeRecord (s : State) : Long := atLong 32 (Config.freeEvents s.epoch s.cycle)

/-- This cycle's inputs: the first of `State.inputs`, or the free ones, out of reset. -/
def nextInput (s : State) : CycleInput :=
  match s.inputs with
  | i :: _ => i
  | [] => { rstN := true, word := freeRecord s }

/-! ## The phases -/

/-- A reset cycle (R100, R270): `PowerOn`, `RESP = 0`, `TRIG = 0`; the registered outputs show the state
at the start of the cycle (R102; DEDUCED, log entry 4); the cycle number starts again (log entry 10). -/
def resetCycle (s : State) : State :=
  driveOutputs (full s) (viewBit s.view) s.range (State.powerOn s.cfg (s.epoch + 1) s.inputs)

/-- Phase 2 (R100): a completion, or a cycle without one. -/
def completionPhase (r : CycleRecord) (s : State) : Result :=
  if r.adcValid then exec (.completion r.adcData) s else .next (serviceLatch s)

/-- An event that happens only when `b` (R180). -/
def execWhen (b : Bool) (i : Instr) (s : State) : Result := if b then exec i s else .next s

/-- Phase 3 (R180): both edges are detected against the history, the history takes the new levels, then
ADVANCE and CONFIRM. -/
def edgePhase (r : CycleRecord) (s : State) : Result :=
  andThen (execWhen (edgeSeen s.cfg.polA s.prevA r.pinA) .edgeA (samplePins r.pinA r.pinB s))
    (execWhen (edgeSeen s.cfg.polB s.prevB r.pinB) .edgeB)

/-- Phases 4 and 5 and the outputs of the cycle that began in `s0` (R100, R102). -/
def finishCycle (s0 s : State) : State :=
  nextCycle (driveOutputs (full s0) (viewBit s0.view) s0.range
    (clockgen s0.running (rangeUpdate s)))

/-- Phases 2 to 5 of the cycle that began in `s0`, after its command (R100). -/
def eventPhases (r : CycleRecord) (s0 s : State) : Result :=
  andThen (completionPhase r s) (fun s2 =>
    andThen (edgePhase r s2) (fun s3 => .next (finishCycle s0 s3)))

/-- A cycle out of reset (R100, R101): decode and check the command word, run the command, then the
events. -/
def commandCycle (r : CycleRecord) (s : State) : Result :=
  match decodeCommand r.cmd with
  | .error e => .fault (commandFault e s.cycle r.cmd)
  | .ok i => andThen (exec i s) (eventPhases r s)

/-- One cycle (R100): no step after a fault (R231; DEDUCED: it answers that fault again, log entry 8); an
illegal configuration and a word that is no record are refused (R235; in this order, before `RST_N` is
looked at: DESIGN CHOICE, log entries 9, 10). -/
def runCycle (s : State) : Result :=
  match s.fault with
  | some r => .fault r
  | none =>
    if legalConfig s.cfg then
      match decodeRecord (nextInput s).word with
      | .error _ => .refused .notARecord
      | .ok r =>
        if (nextInput s).rstN then commandCycle r (popInput s) else .next (resetCycle (popInput s))
    else .refused .illegalConfig

/-! ## Placing an operation -/

/-- The next cycle's inputs: `r`, out of reset; the pins' history as given. -/
def placeRecord (r : CycleRecord) (a b : Bool) (s : State) : State :=
  samplePins a b
    { s with inputs := { rstN := true, word := encodeRecord r } :: s.inputs.tail }

/-- The command word `w` on the command port in the next cycle, with no completion and with the pins at
the levels the history holds, so that the cycle has no event. -/
def placeCommand (w : Word) (s : State) : State :=
  placeRecord { cmd := w, adcData := 0#8, adcValid := false, pinA := s.prevA, pinB := s.prevB }
    s.prevA s.prevB s

/-- The record `w` as the next cycle's inputs, the pins' history set so that the operation `w` spells
(`decodeCyc64`) is the record's one event (log entry 7). -/
def placeEvent (w : Long) (s : State) : State :=
  let a := w.getLsbD 41
  let b := w.getLsbD 42
  let s' : State := { s with inputs := { rstN := true, word := w } :: s.inputs.tail }
  match decodeCyc64 w with
  | .ok .edgeA => samplePins (!a) b s'
  | .ok .edgeB => samplePins a (!b) s'
  | _ => samplePins a b s'

/-- The bits of a table row (32 a command word, more a cycle record) as the next cycle's inputs. -/
def placeTableWord (nbits w : Nat) (s : State) : State :=
  if nbits ≤ 32 then placeCommand (BitVec.ofNat 32 w) s else placeEvent (BitVec.ofNat 64 w) s

end Sys2Proof.Machine
end

