-- ==== Sys2Proof/Machine/Step.lean ====
section
/-! DEFINITION. The step: one cycle of `CLK` (spec/00_scope.md R6; spec/40_cycle_and_port.md R100). -/

namespace Sys2Proof.Machine

/-- One cycle: a next state, a fault (R230) or a refusal (R235). -/
def step (s : State) : Host.Outcome State Fault Refusal := runCycle s

/-- `s` with a table row's bits placed where the next step takes its operation from: the head of
`State.inputs` (log entry 6). -/
def State.withFetchWord (s : State) (nbits w : Nat) : State := placeTableWord nbits w s

end Sys2Proof.Machine
end

