-- ==== Sys2Proof/Machine/Stimulus.lean ====
section
/-! DEFINITION. The stimulus language (spec/30_encoding.md R84, R85): one line per cycle, its assembly to
cycle records, the pseudo-instructions' expansions, the reading of its text, and the host's commands: its
boot (spec/70_reset_and_hazards.md R272) and the frames of its loop (spec/60_exceptions.md R250, R252). -/

namespace Sys2Proof.Machine

/-! ## Lines and their assembly -/

/-- One line (R84): a command (opcode and immediate) and the event clauses it has. -/
structure Line where
  /-- `OPC` of the line's command; NOP's where it has none. -/
  opc : Byte
  /-- The command's `imm`. -/
  imm : Half
  /-- `@ADC imm8`. -/
  adc : Option Byte
  /-- `@A=`. -/
  pinA : Option Bool
  /-- `@B=`. -/
  pinB : Option Bool
  deriving DecidableEq, Repr

/-- The line with nothing on it: NOP, no event. -/
def quietLine : Line := { opc := 0x00#8, imm := 0#16, adc := none, pinA := none, pinB := none }

/-- The line of a command alone. -/
def commandLine (opc : Byte) (imm : Half) : Line := { quietLine with opc := opc, imm := imm }

/-- R84: an absent `@ADC` is `ADC_VALID = 0, ADC_DATA = 0`; an absent pin clause keeps the level of the
line before, `a` and `b`. -/
def lineRecord (a b : Bool) (l : Line) : CycleRecord :=
  { cmd := makeWord l.opc l.imm, adcData := l.adc.getD 0#8, adcValid := l.adc.isSome,
    pinA := l.pinA.getD a, pinB := l.pinB.getD b }

/-- Each line assembles to one cycle record (R84), after pin levels `a` and `b`. -/
def assembleFrom (a b : Bool) : List Line → List CycleInput
  | [] => []
  | l :: ls =>
    let r := lineRecord a b l
    { rstN := true, word := encodeRecord r } :: assembleFrom r.pinA r.pinB ls

/-- A program: both pins are 1 before the first line (R84). -/
def assemble (ls : List Line) : List CycleInput := assembleFrom true true ls

/-! ## Pseudo-instructions (R85) -/

/-- `WAIT n`. -/
def waitLines (n : Nat) : List Line := List.replicate n quietLine

/-- `PRESS A`. -/
def pressA : List Line := [{ quietLine with pinA := some false }, { quietLine with pinA := some true }]

/-- `PRESS B`. -/
def pressB : List Line := [{ quietLine with pinB := some false }, { quietLine with pinB := some true }]

/-- `BOUNCE A n`. -/
def bounceA : Nat → List Line
  | 0 => []
  | n + 1 => pressA ++ bounceA n

/-- `POLLFULL` is `RDREG 0`. -/
def pollFull : List Line := [commandLine 0x07#8 0#16]

/-! ## The host's frame (R250) -/

/-- The segment walk of R164: `SEGMENT i` for `n` pairs from `i` on. -/
def segmentLines : Nat → Nat → List Line
  | _, 0 => []
  | i, n + 1 => commandLine 0x09#8 (BitVec.ofNat 16 i) :: segmentLines (i + 1) n

/-- The commands of one Scope-view frame after the poll (R250, 2a to 2g): MASK, the walk, the dwell,
CLEAR, UNMASK. -/
def hostFrame (width dwell : Nat) : List Line :=
  commandLine 0x03#8 0#16 :: segmentLines 0 (width - 1) ++ waitLines dwell
    ++ [commandLine 0x05#8 0#16, commandLine 0x04#8 0#16]

/-- The boot of R272 with period `p`: CFGPER, then START. -/
def hostBoot (p : Half) : List Line := [commandLine 0x01#8 p, commandLine 0x02#8 0#16]

/-- The queries of one Menu-view frame (R252): HILITE of `n` rows from `r` on. -/
def menuLines : Nat → Nat → List Line
  | _, 0 => []
  | r, n + 1 => commandLine 0x0A#8 (BitVec.ofNat 16 r) :: menuLines (r + 1) n

/-! ## The text (R84) -/

/-- A token, when it is not empty. -/
def flush (cur : List Char) : List (List Char) := if cur = [] then [] else [cur]

/-- The tokens of a line, up to its comment. R84's grammar says nothing of white space: DESIGN CHOICE, tokens
are separated by blanks and tabs, at least one and nowhere inside a token (log entry 15). -/
def lexLine (cur : List Char) : List Char → List (List Char)
  | [] => flush cur
  | c :: cs =>
    if c = ';' then flush cur
    else if c = ' ' ∨ c = '\t' then flush cur ++ lexLine [] cs
    else lexLine (cur ++ [c]) cs

/-- A digit's value, in either case. -/
def digitValue (c : Char) : Option Nat :=
  let n := c.toNat
  if 48 ≤ n ∧ n ≤ 57 then some (n - 48)
  else if 97 ≤ n ∧ n ≤ 102 then some (n - 87)
  else if 65 ≤ n ∧ n ≤ 70 then some (n - 55)
  else none

/-- The number of a digit sequence in a base, after the value `acc`. -/
def digitsFrom (base acc : Nat) : List Char → Option Nat
  | [] => some acc
  | c :: cs =>
    match digitValue c with
    | some d => if d < base then digitsFrom base (acc * base + d) cs else none
    | none => none

/-- `decimal | '0x' hex`, at most `top`. -/
def parseNat (top : Nat) (tok : List Char) : Option Nat :=
  let v := match tok with
    | [] => none
    | '0' :: 'x' :: [] => none
    | '0' :: 'x' :: ds => digitsFrom 16 0 ds
    | ds => digitsFrom 10 0 ds
  match v with
  | some n => if n ≤ top then some n else none
  | none => none

/-- The commands without an immediate. -/
def bareOpcode (tok : List Char) : Option Byte :=
  if tok = ['N', 'O', 'P'] then some 0x00#8
  else if tok = ['S', 'T', 'A', 'R', 'T'] then some 0x02#8
  else if tok = ['M', 'A', 'S', 'K'] then some 0x03#8
  else if tok = ['U', 'N', 'M', 'A', 'S', 'K'] then some 0x04#8
  else if tok = ['C', 'L', 'E', 'A', 'R'] then some 0x05#8
  else none

/-- The commands with an immediate. -/
def immOpcode (tok : List Char) : Option Byte :=
  if tok = ['C', 'F', 'G', 'P', 'E', 'R'] then some 0x01#8
  else if tok = ['R', 'D', 'B', 'U', 'F'] then some 0x06#8
  else if tok = ['R', 'D', 'R', 'E', 'G'] then some 0x07#8
  else if tok = ['M', 'A', 'P', 'R', 'O', 'W'] then some 0x08#8
  else if tok = ['S', 'E', 'G', 'M', 'E', 'N', 'T'] then some 0x09#8
  else if tok = ['H', 'I', 'L', 'I', 'T', 'E'] then some 0x0A#8
  else none

/-- A pin clause's level: `@A=0`, `@A=1` and the same for B. -/
def pinClause (pin : Char) (tok : List Char) : Option Bool :=
  if tok = ['@', pin, '=', '0'] then some false
  else if tok = ['@', pin, '=', '1'] then some true
  else none

/-- The event clauses of a line. A clause given twice is rejected (log entry 12). -/
def parseEvents (l : Line) : List (List Char) → Option Line
  | [] => some l
  | tok :: rest =>
    if tok = ['@', 'A', 'D', 'C'] then
      match rest with
      | [] => none
      | v :: rest' =>
        match l.adc, parseNat 255 v with
        | none, some n => parseEvents { l with adc := some (BitVec.ofNat 8 n) } rest'
        | _, _ => none
    else
      match l.pinA, pinClause 'A' tok, l.pinB, pinClause 'B' tok with
      | none, some b, _, _ => parseEvents { l with pinA := some b } rest
      | _, none, none, some b => parseEvents { l with pinB := some b } rest
      | _, _, _, _ => none

/-- The pseudo-instructions of R85, as the lines they stand for. R85 does not say whether event clauses may
stand on their lines: DESIGN CHOICE, a pseudo-instruction, POLLFULL included, stands alone on its line (log
entry 15); the bound on a count is log entry 12's. -/
def parsePseudo (toks : List (List Char)) : Option (List Line) :=
  match toks with
  | [t] => if t = ['P', 'O', 'L', 'L', 'F', 'U', 'L', 'L'] then some pollFull else none
  | [t, u] =>
    if t = ['W', 'A', 'I', 'T'] then (parseNat 65535 u).map waitLines
    else if t = ['P', 'R', 'E', 'S', 'S'] then
      (if u = ['A'] then some pressA else if u = ['B'] then some pressB else none)
    else none
  | [t, u, v] =>
    if t = ['B', 'O', 'U', 'N', 'C', 'E'] ∧ u = ['A'] then (parseNat 65535 v).map bounceA else none
  | _ => none

/-- A line's tokens: a pseudo-instruction, or an optional command and event clauses. -/
def parseTokens (toks : List (List Char)) : Option (List Line) :=
  match parsePseudo toks with
  | some ls => some ls
  | none =>
    match toks with
    | [] => some [quietLine]
    | t :: rest =>
      match bareOpcode t, immOpcode t, rest with
      | some op, _, _ => (parseEvents (commandLine op 0#16) rest).map ([·])
      | none, some op, v :: rest' =>
        match parseNat 65535 v with
        | some n => (parseEvents (commandLine op (BitVec.ofNat 16 n)) rest').map ([·])
        | none => none
      | none, some _, [] => none
      | none, none, _ => (parseEvents quietLine (t :: rest)).map ([·])

/-- One line of text (R84). -/
def parseLine (text : List Char) : Option (List Line) := parseTokens (lexLine [] text)

/-- A program's text, one list of characters a line. -/
def parseProgram : List (List Char) → Option (List Line)
  | [] => some []
  | t :: ts =>
    match parseLine t, parseProgram ts with
    | some ls, some rest => some (ls ++ rest)
    | _, _ => none

end Sys2Proof.Machine
end

