-- ==== Sys2Proof/WellFormed.lean ====
section
/-! DEFINITION. Which operations carry a legal operand under a configuration (spec/30_encoding.md R76:
the "operand" column; R79: "every word either spells one of the eleven commands with a legal operand or
faults"). An operation that fails its check faults when it is executed (spec/60_exceptions.md R232). -/

namespace Sys2Proof

/-- The operand range of each command (R76, R120, R104, R145, R162, R201). Events take any operand. -/
def Instr.wellFormed (c : Config) : Instr → Bool
  | .nop => true
  | .cfgper p => decide (p ≠ 0#16)
  | .start => true
  | .mask => true
  | .unmask => true
  | .clear => true
  | .rdbuf a => decide (a.toNat ≤ c.width)
  | .rdreg idx => decide (idx.toNat ≤ 4)
  | .maprow _ => true
  | .segment k => decide (k.toNat + 2 ≤ c.width)
  | .hilite r => decide (r.toNat < c.nItems)
  | .completion _ => true
  | .edgeA => true
  | .edgeB => true

end Sys2Proof
end

