-- ==== Sys2Proof/Safety.lean ====
section
/-! DEFINITION. What the claims speak in: the invariants of spec/10_state.md R42 and of the capture store,
what an operation leaves unchanged, runs of cycles and what a fault leaves behind (spec/60_exceptions.md
R231), and the duties of the environment agents as named premises (R125, R126, R253). -/

namespace Sys2Proof.Safety

open Sys2Proof.Machine

/-! ## Invariants -/

/-- R42 (a) to (e). -/
structure Inv (s : State) : Prop where
  cursor_le : s.cursor ≤ s.cfg.width + 1
  selector_le : s.selector ≤ s.cfg.nItems
  range_onehot : isOnehot s.cfg.nItems s.range = true
  range_selected : 1 ≤ s.selector → s.range = onehot (s.selector - 1)
  clock_legal : s.running = true → 1 ≤ s.period.toNat ∧ s.count.toNat < s.period.toNat

/-- The capture store: canonical, no cell outside `0..WIDTH` (R23, R50), every cell below the cursor
written since power-on (R148), and nothing held for later but while masked under `LatchOne` (R34, R141). -/
structure StoreInv (s : State) : Prop where
  canonical : Memory.wf s.buf = true
  in_store : ∀ a, s.cfg.width < a → readMemory s.buf a = none
  filled : ∀ a, a < s.cursor → readMemory s.buf a ≠ none
  latch_idle : s.cfg.maskedPolicy = .drop ∨ s.masked = false → s.pendV = false

/-! ## What stays unchanged -/

/-- Every cell of the capture store reads as before. -/
def SameStore (s t : State) : Prop := ∀ a, readCell t a = readCell s a

/-- Every cell but `a`. -/
def SameStoreBut (a : Nat) (s t : State) : Prop := ∀ b, b ≠ a → readCell t b = readCell s b

/-- The registers of CaptureBuffer but `MASKED`, and of the latch. -/
def SameLatch (s t : State) : Prop := t.pendV = s.pendV ∧ t.pendD = s.pendD

/-- `CURSOR` and `MASKED`. -/
def SameCursorMask (s t : State) : Prop := t.cursor = s.cursor ∧ t.masked = s.masked

/-- The registers of SampleClock. -/
def SameClock (s t : State) : Prop := t.period = s.period ∧ t.running = s.running ∧ t.count = s.count

/-- The pins' history. -/
def SamePins (s t : State) : Prop := t.prevA = s.prevA ∧ t.prevB = s.prevB

/-- `SELECTOR` and `VIEW`. -/
def SameMenu (s t : State) : Prop := t.selector = s.selector ∧ t.view = s.view

/-- What no operation writes: `RANGE` (phase 4 alone does), the outputs but `RESP`, the parameters, and
the model's bookkeeping. -/
def SameRest (s t : State) : Prop :=
  t.range = s.range ∧ t.out.trig = s.out.trig ∧ t.out.fullOut = s.out.fullOut
    ∧ t.out.viewOut = s.out.viewOut ∧ t.out.rangeOut = s.out.rangeOut
    ∧ t.cfg = s.cfg ∧ t.fault = s.fault ∧ t.cycle = s.cycle ∧ t.epoch = s.epoch
    ∧ t.inputs = s.inputs

/-- Everything but `RESP`: what an operation without effect on the state leaves (R54). -/
def SameButResponse (s t : State) : Prop :=
  SameStore s t ∧ SameCursorMask s t ∧ SameLatch s t ∧ SameClock s t ∧ SamePins s t ∧ SameMenu s t
    ∧ SameRest s t

/-- The two states differ at most in the hidden state of R40. -/
def SameVisible (s t : State) : Prop :=
  SameStore s t ∧ SameCursorMask s t ∧ t.period = s.period ∧ t.running = s.running ∧ SameMenu s t
    ∧ t.range = s.range ∧ t.cfg = s.cfg

/-- `PowerOn` (R270): no cell of the store has been written (its value is unspecified); `PEND_D` is
unspecified; every other field, `RESP` and `TRIG` have R270's values. -/
def PoweredOn (t : State) : Prop :=
  (∀ a, readMemory t.buf a = none)
    ∧ t.cursor = 0 ∧ full t = false ∧ t.masked = false ∧ t.pendV = false
    ∧ t.period = 0#16 ∧ t.running = false ∧ t.count = 0#16
    ∧ t.prevA = true ∧ t.prevB = true ∧ t.selector = 0 ∧ t.view = .scope
    ∧ t.range = t.cfg.rangeReset ∧ t.fault = none
    ∧ t.out.resp = 0#64 ∧ t.out.trig = false

/-! ## The cycle's inputs, read -/

/-- In `s`, a cycle can run (no fault, a legal configuration) and its inputs are the record `r`, out of
reset. -/
def Runs (s : State) (r : CycleRecord) : Prop :=
  s.fault = none ∧ legalConfig s.cfg = true ∧ (nextInput s).rstN = true
    ∧ decodeRecord (nextInput s).word = .ok r

/-- In `s`, a cycle can run, and it is a reset cycle. -/
def InReset (s : State) : Prop :=
  s.fault = none ∧ legalConfig s.cfg = true ∧ (nextInput s).rstN = false
    ∧ ∃ r, decodeRecord (nextInput s).word = .ok r

/-- The command of a cycle, where its word spells one. -/
def Issues (s : State) (r : CycleRecord) (i : Instr) : Prop :=
  Runs s r ∧ decodeCommand r.cmd = .ok i

/-- R253 (e), R232: the operand is legal, and START finds a clock that runs or is configured. -/
def legalCommand (s : State) (i : Instr) : Bool :=
  i.wellFormed s.cfg && (i != .start || s.running || decide (s.period ≠ 0#16))

/-- The commands that only read (R54). -/
def isRead : Instr → Bool
  | .rdbuf _ => true
  | .rdreg _ => true
  | .maprow _ => true
  | .segment _ => true
  | .hilite _ => true
  | _ => false

/-- The commands that answer nothing: `RESP` = 0 (R81). -/
def answersNothing : Instr → Bool
  | .nop => true
  | .cfgper _ => true
  | .start => true
  | .mask => true
  | .unmask => true
  | .clear => true
  | _ => false

/-! ## Runs of cycles -/

/-- `k` cycles. -/
def run : Nat → State → Result
  | 0, s => .next s
  | k + 1, s => andThen (step s) (run k)

/-- What a cycle leaves, a fault included: the fault is recorded and every other field stays (R230, R240);
where the model refuses, nothing changes. -/
def settle (s : State) : State :=
  match step s with
  | .next t => t
  | .fault r => recordFault r s
  | .refused _ => s

/-- What `k` cycles leave. -/
def settleMany : Nat → State → State
  | 0, s => s
  | k + 1, s => settleMany k (settle s)

/-- The outputs of the next `k` cycles, up to the first that stops. -/
def outputsOf : Nat → State → List Outputs
  | 0, _ => []
  | k + 1, s =>
    match step s with
    | .next t => t.out :: outputsOf k t
    | .fault _ => []
    | .refused _ => []

/-- The completion an input carries. -/
def sampleOf (i : CycleInput) : Option Byte :=
  if i.word.getLsbD 40 then some (i.word.extractLsb' 32 8) else none

/-- The samples that a list of inputs presents, in order. -/
def samplesOf : List CycleInput → List Byte
  | [] => []
  | i :: is =>
    match sampleOf i with
    | some d => d :: samplesOf is
    | none => samplesOf is

/-- The opcode of an input's command word. -/
def opcodeOf (i : CycleInput) : Byte := i.word.extractLsb' 24 8

/-- An input out of reset whose command does not change a period `p`: not CFGPER, or CFGPER `p`. -/
def keepsPeriod (p : Half) (i : CycleInput) : Bool :=
  i.rstN && (opcodeOf i != 0x01#8 || i.word.extractLsb' 0 16 == p)

/-- An input out of reset whose command is neither MASK nor CLEAR. -/
def keepsCapture (i : CycleInput) : Bool :=
  i.rstN && opcodeOf i != 0x03#8 && opcodeOf i != 0x05#8

/-- The pin levels of a list of inputs, by one pin's record bit (41 or 42). -/
def pinLevels (bit : Nat) : List CycleInput → List Bool
  | [] => []
  | i :: is => i.word.getLsbD bit :: pinLevels bit is

/-- `n` times low and back high, one level per cycle (R184). -/
def bounceLevels : Nat → List Bool
  | 0 => []
  | n + 1 => false :: true :: bounceLevels n

/-! ## The environment's duties, as premises -/

/-- R125, R253 (a): the trigger period exceeds the Converter's latency. -/
def marginMet (s : State) : Prop := s.cfg.convLat < s.period.toNat

/-- R126: the Converter's own counter, 0 idle, `n + 1` a completion due in `n + 1` cycles' time counted
to the cycle that carries it as 1 (DEDUCED, log entry 11). After a cycle with trigger `trig`: a trigger starts a conversion only
when none is in progress after this cycle (R126 (a), (c)). -/
def converterNext (lat left : Nat) (trig : Bool) : Nat :=
  if left ≤ 1 then (if trig then lat else 0) else left - 1

/-- R126: over the (`TRIG`, `ADC_VALID`) pairs of a run, each conversion gives exactly one completion,
`lat` cycles after its trigger, and there is no other. -/
def converterKeeps (lat : Nat) : Nat → List (Bool × Bool) → Bool
  | _, [] => true
  | left, (trig, valid) :: rest =>
    (valid == (left == 1)) && converterKeeps lat (converterNext lat left trig) rest

/-- Where the host is in its loop (R250, R253). -/
inductive HostPhase where
  /-- Accumulating: unmasked, nothing is read. -/
  | accumulating
  /-- Draining: masked, reading. -/
  | draining
  /-- Cleared: masked, the cursor at 0. -/
  | cleared
  deriving DecidableEq, Repr

/-- R253 (b) to (d): MASK before the first read of a drain, CLEAR after its last, UNMASK after CLEAR. None
where the command breaks a duty. -/
def hostNext (p : HostPhase) (i : Instr) : Option HostPhase :=
  match i, p with
  | .mask, .accumulating => some .draining
  | .mask, _ => some p
  | .rdbuf _, .draining => some .draining
  | .rdbuf _, _ => none
  | .segment _, .draining => some .draining
  | .segment _, _ => none
  | .clear, .draining => some .cleared
  | .clear, .cleared => some .cleared
  | .clear, .accumulating => none
  | .unmask, .cleared => some .accumulating
  | .unmask, .accumulating => some .accumulating
  | .unmask, .draining => none
  | _, _ => some p

/-- R253 (b) to (d) over a sequence of commands. -/
def hostKeeps : HostPhase → List Instr → Bool
  | _, [] => true
  | p, i :: is =>
    match hostNext p i with
    | some q => hostKeeps q is
    | none => false

end Sys2Proof.Safety
end

