-- ==== Sys2Proof/Certificates/Slice0/Obligations.lean ====
section
/-! DEFINITION. The statements about OSC-ACQ, from the numbered rules of spec/. Each holds for every
configuration (and, where it says so, every legal one), every state, and every input. -/

open Sys2Proof Sys2Proof.Machine Sys2Proof.Safety

/-! ## Encodings -/

/-- Decoding the encoding of an operation gives it back, for every operand (R75 to R77, R82);
the edges' encodings are those of the default polarity (log entry 7). -/
def Obligations.DecodeOfEncode : Prop :=
  ∀ i : Instr, decode (encode i) = .ok i

/-- A word that spells a command is that command's one word: no bit is ignored (R78, R79). -/
def Obligations.CommandWordHasOneSpelling : Prop :=
  ∀ (w : Word) (i : Instr), decodeCommand w = .ok i → i.isCommand = true ∧ commandWord i = w

/-- R101's decoding checks by the fields of R75: the opcode first, then R78's unused fields; a word that
passes both spells a command. -/
def Obligations.CommandCheckOrder : Prop :=
  ∀ w : Word,
    (decodeCommand w = .error .opcode ↔ 0x0A < (w.extractLsb' 24 8).toNat)
    ∧ (decodeCommand w = .error .rsvBits ↔
        (w.extractLsb' 24 8).toNat ≤ 0x0A
          ∧ (w.extractLsb' 16 8 ≠ 0#8
            ∨ ((w.extractLsb' 24 8).toNat ∈ [0, 2, 3, 4, 5] ∧ w.extractLsb' 0 16 ≠ 0#16)
            ∨ ((w.extractLsb' 24 8).toNat = 8 ∧ w.extractLsb' 8 8 ≠ 0#8)))

/-- Command words written out from R75 and R76 (the examples of R120, R145, R161, R162, R201, R104, R105) and
event records written out from R72 and R82 spell what the spec says; the two edges' records are read for the
default polarity with low histories (the model's choice, log entry 7). -/
def Obligations.DecodesWrittenWords : Prop :=
  decodeCommand 0x00000000#32 = .ok .nop
  ∧ decodeCommand 0x01000004#32 = .ok (.cfgper 4#16)
  ∧ decodeCommand 0x06000002#32 = .ok (.rdbuf 2#16)
  ∧ decodeCommand 0x07000004#32 = .ok (.rdreg 4#16)
  ∧ decodeCommand 0x08000080#32 = .ok (.maprow 0x80#8)
  ∧ decodeCommand 0x09000000#32 = .ok (.segment 0#16)
  ∧ decodeCommand 0x0A000001#32 = .ok (.hilite 1#16)
  ∧ decodeCommand 0x0B000000#32 = .error .opcode
  ∧ decodeCyc64 0x0000014200000000#64 = .ok (.completion 0x42#8)
  ∧ decodeCyc64 0x0000020000000000#64 = .ok .edgeA
  ∧ decodeCyc64 0x0000040000000000#64 = .ok .edgeB

/-- A cycle record and its fields determine each other, and a word with a one in bits 63:43 is none
(R72). -/
def Obligations.RecordRoundTrip : Prop :=
  (∀ r : CycleRecord, decodeRecord (encodeRecord r) = .ok r)
  ∧ (∀ (w : Long) (r : CycleRecord), decodeRecord w = .ok r → encodeRecord r = w)
  ∧ (∀ w : Long, decodeRecord w = .error .highBits ↔ w.extractLsb' 43 21 ≠ 0#21)

/-- The bytes of a word, in either order of a bus binding, are read back as that word's command or error,
with the bytes after it left over (R51; the two orders are the model's choice, log entry 14). -/
def Obligations.BusBytesRoundTrip : Prop :=
  ∀ (o : ByteOrder) (w : Word) (rest : List Byte),
    (∀ i, decodeCommand w = .ok i → decodeBytes o (wordBytes o w ++ rest) = .ok (i, rest))
    ∧ (∀ e, decodeCommand w = .error e → decodeBytes o (wordBytes o w ++ rest) = .error (.command e))

/-- R84: a program assembles to one record a line, out of reset (log entry 12); the record's `CMD` is the
line's command; `@ADC` gives the completion and its sample, an absent one neither; a pin clause sets the
level, and an absent one keeps the previous line's, 1 before the first. R85: `BOUNCE A n` is `n` times low and back high on pin A. -/
def Obligations.StimulusAssembles : Prop :=
  (∀ ls : List Line, (assemble ls).length = ls.length)
  ∧ (∀ (ls : List Line) (x : CycleInput), x ∈ assemble ls →
      x.rstN = true ∧ ∃ r, decodeRecord x.word = .ok r)
  ∧ (∀ (ls : List Line) (k : Nat) (l : Line) (x : CycleInput),
      (assemble ls)[k]? = some x → ls[k]? = some l →
      x.word.extractLsb' 24 8 = l.opc ∧ x.word.extractLsb' 16 8 = 0#8 ∧ x.word.extractLsb' 0 16 = l.imm
        ∧ x.word.getLsbD 40 = l.adc.isSome ∧ x.word.extractLsb' 32 8 = l.adc.getD 0#8)
  ∧ (∀ (ls : List Line) (l : Line) (x : CycleInput),
      (assemble ls)[0]? = some x → ls[0]? = some l →
      x.word.getLsbD 41 = l.pinA.getD true ∧ x.word.getLsbD 42 = l.pinB.getD true)
  ∧ (∀ (ls : List Line) (k : Nat) (l : Line) (x y : CycleInput),
      (assemble ls)[k]? = some x → (assemble ls)[k + 1]? = some y → ls[k + 1]? = some l →
      y.word.getLsbD 41 = l.pinA.getD (x.word.getLsbD 41)
        ∧ y.word.getLsbD 42 = l.pinB.getD (x.word.getLsbD 42))
  ∧ (∀ n : Nat, pinLevels 41 (assemble (bounceA n)) = bounceLevels n)

/-! ## The step -/

/-- A cycle whose record's word spells `i` runs `i`, then the events and the phases of R100 in order:
completion (or the latch service), edge A, edge B, range update, trigger generator and outputs. -/
def Obligations.StepRunsDecodedInstruction : Prop :=
  ∀ (s : State) (r : CycleRecord) (i : Instr), Issues s r i →
    step s = andThen (exec i (popInput s)) (fun w =>
      andThen (if r.adcValid then exec (.completion r.adcData) w else .next (serviceLatch w)) (fun w2 =>
      andThen (if edgeSeen w2.cfg.polA w2.prevA r.pinA then exec .edgeA (samplePins r.pinA r.pinB w2)
          else .next (samplePins r.pinA r.pinB w2)) (fun w3 =>
      andThen (if edgeSeen w2.cfg.polB w2.prevB r.pinB then exec .edgeB w3 else .next w3) (fun w4 =>
      .next (nextCycle (driveOutputs (full s) (viewBit s.view) s.range
        (clockgen s.running (rangeUpdate w4))))))))

/-- The model's choice (log entry 5) for a cycle that no input is listed for: out of reset, no command
(R74), and the environment's inputs the free value of that cycle (R106). -/
def Obligations.UnlistedCycleIsFree : Prop :=
  ∀ s : State, s.fault = none → legalConfig s.cfg = true → s.inputs = [] →
    ∃ r, Issues s r .nop
      ∧ r.adcData = (Config.freeEvents s.epoch s.cycle).extractLsb' 0 8
      ∧ r.adcValid = (Config.freeEvents s.epoch s.cycle).getLsbD 8
      ∧ r.pinA = (Config.freeEvents s.epoch s.cycle).getLsbD 9
      ∧ r.pinB = (Config.freeEvents s.epoch s.cycle).getLsbD 10

/-- The model's own placing (log entries 6, 7): a command word placed for the next step is the command
that step runs, with no event beside it; an event's record is, under the default polarities, that one
event. -/
def Obligations.PlacedWordRuns : Prop :=
  ∀ (s : State) (w : Nat) (i : Instr), s.fault = none → legalConfig s.cfg = true →
    (decodeTableWord 32 w = some i →
      ∃ r, Issues (s.withFetchWord 32 w) r i
        ∧ recordEvents s.cfg.polA s.cfg.polB (s.withFetchWord 32 w).prevA (s.withFetchWord 32 w).prevB r
          = [])
    ∧ (decodeTableWord 64 w = some i → i.isCommand = false →
      s.cfg.polA = .rising → s.cfg.polB = .rising →
      ∃ r, Runs (s.withFetchWord 64 w) r
        ∧ recordEvents s.cfg.polA s.cfg.polB (s.withFetchWord 64 w).prevA (s.withFetchWord 64 w).prevB r
          = [i])

/-- R105: a word with a reserved opcode faults with `FLT_OPCODE` whatever its other fields. -/
def Obligations.ReservedOpcodeFaults : Prop :=
  ∀ (s : State) (r : CycleRecord), Runs s r → 0x0B ≤ (r.cmd.extractLsb' 24 8).toNat →
    step s = .fault (.opcode s.cycle r.cmd)

/-- R231: after a fault no step is taken, whatever the inputs, and what was recorded stays; a power-on
state has no fault. That a step of such a state answers the fault again, and what `settle` records, is the
model's form (log entry 8). -/
def Obligations.FaultStopsForGood : Prop :=
  (∀ (s : State) (f : Fault), s.fault = some f →
    ∀ k, run (k + 1) s = .fault f ∧ settleMany k s = s)
  ∧ (∀ (s : State) (f : Fault), s.fault = none → step s = .fault f →
    ∀ k, settleMany (k + 1) s = recordFault f s)
  ∧ (∀ c e ins, (State.powerOn c e ins).fault = none)

/-- R235: an illegal configuration and a word that is no record are refused. That `CONV_LAT` above 65535 is
illegal and that the configuration is looked at first is log entry 9; that such a word is refused in a
reset cycle too is the model's choice, log entry 10. -/
def Obligations.UnusableInputsRefused : Prop :=
  ∀ s : State, s.fault = none →
    (legalConfig s.cfg = false → step s = .refused .illegalConfig)
    ∧ (legalConfig s.cfg = true → (nextInput s).word.extractLsb' 43 21 ≠ 0#21 →
        step s = .refused .notARecord)

/-- The legality of a configuration is R9's list (with R7's upper bound on `CONV_LAT`, log
entry 9). -/
def Obligations.LegalConfigurations : Prop :=
  ∀ c : Config, legalConfig c = true ↔
    (2 ≤ c.width ∧ c.width ≤ 65535) ∧ (1 ≤ c.nItems ∧ c.nItems ≤ 32)
    ∧ (127 ≤ c.plotBottom ∧ c.plotBottom ≤ 65535) ∧ c.plotTop ≤ c.plotBottom - 127
    ∧ (∃ k, k < c.nItems ∧ ∀ b, b < 32 → (c.rangeReset.getLsbD b = true ↔ b = k))
    ∧ (1 ≤ c.convLat ∧ c.convLat ≤ 65535)

/-- R270: a reset cycle, whatever its command and events, leaves `PowerOn` under the same configuration;
and power-on is that state. That a cell whose value is unspecified is not listed is the form of log entry 3;
the output ports of a state before any cycle are the model's choice, log entry 4. -/
def Obligations.ResetForcesPowerOn : Prop :=
  (∀ s : State, InReset s → ∃ t, step s = .next t ∧ PoweredOn t ∧ t.cfg = s.cfg)
  ∧ (∀ c e ins, PoweredOn (State.powerOn c e ins) ∧ (State.powerOn c e ins).cfg = c)
  ∧ PoweredOn State.reset

/-- The model's own bookkeeping (log entries 3, 10): a reset cycle starts a new power-on, numbered one
higher, at cycle number 0, with the inputs after it; every cell then reads as that power-on's free
value. -/
def Obligations.ResetStartsNewRun : Prop :=
  (∀ s : State, InReset s →
    ∃ t, step s = .next t ∧ t.epoch = s.epoch + 1 ∧ t.cycle = 0 ∧ t.inputs = s.inputs.tail
      ∧ ∀ a, readCell t a = Config.powerOnCell (s.epoch + 1) a)
  ∧ (∀ c e ins, (State.powerOn c e ins).cycle = 0
    ∧ ∀ a, readCell (State.powerOn c e ins) a = Config.powerOnCell e a)

/-! ## Invariants -/

/-- The invariants of R42 and of the store hold at every power-on, and at `State.reset`
(whose configuration is the model's choice, log entry 1). -/
def Obligations.InvariantsAtPowerOn : Prop :=
  (∀ c e ins, legalConfig c = true →
    Inv (State.powerOn c e ins) ∧ StoreInv (State.powerOn c e ins))
  ∧ Inv State.reset ∧ StoreInv State.reset ∧ legalConfig State.reset.cfg = true

/-- Every cycle keeps R42 (a) to (e), from every state that meets them. -/
def Obligations.StepKeepsRegisterInvariant : Prop :=
  ∀ s t : State, Inv s → step s = .next t → Inv t

/-- Every cycle keeps the capture store canonical, inside `0..WIDTH` and filled below the cursor, and
nothing is held but while masked under `LatchOne`. -/
def Obligations.StepKeepsStoreInvariant : Prop :=
  ∀ s t : State, StoreInv s → step s = .next t → StoreInv t

/-- R42 over every run from every power-on with every list of inputs, clause by clause. -/
def Obligations.RunsMeetStateInvariants : Prop :=
  ∀ (c : Config) (e : Nat) (ins : List CycleInput) (k : Nat) (t : State), legalConfig c = true →
    run k (State.powerOn c e ins) = .next t →
    t.cursor ≤ t.cfg.width + 1
    ∧ t.selector ≤ t.cfg.nItems
    ∧ (∃ j, j < t.cfg.nItems ∧ ∀ b, b < 32 → (t.range.getLsbD b = true ↔ b = j))
    ∧ (1 ≤ t.selector → t.range = onehot (t.selector - 1))
    ∧ (t.running = true → 1 ≤ t.period.toNat ∧ t.count.toNat < t.period.toNat)
    ∧ (1 ≤ t.selector → ∀ u, step t = .next u → (nextInput t).rstN = true → 1 ≤ u.selector)

/-- R25: `FULL` is `CURSOR > WIDTH`, which within R42 is `CURSOR = WIDTH + 1`; 0 at power-on. -/
def Obligations.FullIsOneAboveWidth : Prop :=
  (∀ s : State, full s = true ↔ s.cursor > s.cfg.width)
  ∧ (∀ s : State, Inv s → (full s = true ↔ s.cursor = s.cfg.width + 1))
  ∧ (∀ c e ins, full (State.powerOn c e ins) = false)

/-! ## Each operation: where it completes, what it gives, what it leaves -/

/-- NOP completes in every state; `RESP` is 0 and nothing else changes (R103). -/
def Obligations.NopCompletes : Prop :=
  ∀ s : State, ∃ t, exec .nop s = .next t ∧ t.out.resp = 0#64 ∧ SameButResponse s t

/-- CFGPER: a nonzero period is taken, `COUNT` and `RUNNING` stay; 0 faults (R120). -/
def Obligations.CfgperSetsPeriod : Prop :=
  ∀ (s : State) (p : Half),
    (p ≠ 0#16 → ∃ t, exec (.cfgper p) s = .next t ∧ t.period = p ∧ t.out.resp = 0#64
      ∧ t.count = s.count ∧ t.running = s.running
      ∧ SameStore s t ∧ SameCursorMask s t ∧ SameLatch s t ∧ SamePins s t ∧ SameMenu s t ∧ SameRest s t)
    ∧ (p = 0#16 → exec (.cfgper p) s = .fault (.periodZero s.cycle 0x01000000#32))

/-- START: running, no effect; stopped and configured, it runs from `COUNT = 0`; stopped and not
configured, it faults (R121). -/
def Obligations.StartStartsClock : Prop :=
  ∀ s : State,
    (s.running = true → ∃ t, exec .start s = .next t ∧ t.out.resp = 0#64 ∧ SameButResponse s t)
    ∧ (s.running = false → s.period ≠ 0#16 →
      ∃ t, exec .start s = .next t ∧ t.running = true ∧ t.count = 0#16 ∧ t.out.resp = 0#64
        ∧ t.period = s.period
        ∧ SameStore s t ∧ SameCursorMask s t ∧ SameLatch s t ∧ SamePins s t ∧ SameMenu s t
        ∧ SameRest s t)
    ∧ (s.running = false → s.period = 0#16 →
      exec .start s = .fault (.notConfigured s.cycle 0x02000000#32))

/-- MASK and UNMASK write `MASKED` only, in every state (R142, R143). -/
def Obligations.MaskAndUnmaskWriteMasked : Prop :=
  ∀ s : State,
    (∃ t, exec .mask s = .next t ∧ t.masked = true ∧ t.out.resp = 0#64 ∧ t.cursor = s.cursor
      ∧ full t = full s
      ∧ SameStore s t ∧ SameLatch s t ∧ SameClock s t ∧ SamePins s t ∧ SameMenu s t ∧ SameRest s t)
    ∧ (∃ t, exec .unmask s = .next t ∧ t.masked = false ∧ t.out.resp = 0#64 ∧ t.cursor = s.cursor
      ∧ full t = full s
      ∧ SameStore s t ∧ SameLatch s t ∧ SameClock s t ∧ SamePins s t ∧ SameMenu s t ∧ SameRest s t)

/-- CLEAR sets `CURSOR` to 0 and erases no cell, in every state (R144). -/
def Obligations.ClearRewindsCursor : Prop :=
  ∀ s : State, ∃ t, exec .clear s = .next t ∧ t.cursor = 0 ∧ full t = false ∧ t.out.resp = 0#64
    ∧ t.masked = s.masked
    ∧ SameStore s t ∧ SameLatch s t ∧ SameClock s t ∧ SamePins s t ∧ SameMenu s t ∧ SameRest s t

/-- RDBUF of `0..WIDTH` answers the cell, zero-extended; above `WIDTH` it faults (R145). -/
def Obligations.RdbufReadsCell : Prop :=
  ∀ (s : State) (a : Half),
    (a.toNat ≤ s.cfg.width → ∃ t, exec (.rdbuf a) s = .next t
      ∧ t.out.resp.extractLsb' 0 8 = readCell s a.toNat ∧ t.out.resp.extractLsb' 8 56 = 0#56
      ∧ SameButResponse s t)
    ∧ (s.cfg.width < a.toNat →
      exec (.rdbuf a) s = .fault (.bufAddr s.cycle (0x06000000#32 ||| a.setWidth 32)))

/-- RDREG answers the five registers of R37 and R38; an index above 4 faults (R104). -/
def Obligations.RdregReadsRegisters : Prop :=
  ∀ s : State,
    (∃ t, exec (.rdreg 0#16) s = .next t
      ∧ t.out.resp.getLsbD 0 = full s ∧ t.out.resp.getLsbD 1 = s.masked
      ∧ t.out.resp.getLsbD 2 = s.running ∧ t.out.resp.getLsbD 3 = decide (s.view = .menu)
      ∧ t.out.resp.extractLsb' 4 60 = 0#60 ∧ SameButResponse s t)
    ∧ (s.cursor ≤ 65536 → ∃ t, exec (.rdreg 1#16) s = .next t
      ∧ t.out.resp.toNat = s.cursor ∧ SameButResponse s t)
    ∧ (∃ t, exec (.rdreg 2#16) s = .next t
      ∧ t.out.resp.toNat = s.period.toNat ∧ SameButResponse s t)
    ∧ (s.selector ≤ 32 → ∃ t, exec (.rdreg 3#16) s = .next t
      ∧ t.out.resp.toNat = s.selector ∧ SameButResponse s t)
    ∧ (∃ t, exec (.rdreg 4#16) s = .next t
      ∧ t.out.resp.toNat = s.range.toNat ∧ SameButResponse s t)
    ∧ (∀ idx : Half, 4 < idx.toNat →
      exec (.rdreg idx) s = .fault (.regIndex s.cycle (0x07000000#32 ||| idx.setWidth 32)))

/-- MAPROW answers the exact row (R160, R161), under every legal configuration. -/
def Obligations.MaprowGivesRow : Prop :=
  ∀ (s : State) (d : Byte), legalConfig s.cfg = true →
    ∃ t, exec (.maprow d) s = .next t
      ∧ (t.out.resp.toNat : Int) = (s.cfg.plotBottom : Int) - ((d.toNat / 2 : Nat) : Int)
      ∧ SameButResponse s t

/-- SEGMENT of pair `0..WIDTH-2` answers `x0`, `x1`, `y0`, `y1` in the places of R81; above it faults
(R162). -/
def Obligations.SegmentPacksLine : Prop :=
  ∀ (s : State) (k : Half), legalConfig s.cfg = true →
    (k.toNat + 2 ≤ s.cfg.width → ∃ t, exec (.segment k) s = .next t
      ∧ (t.out.resp.extractLsb' 0 16).toNat = k.toNat
      ∧ (t.out.resp.extractLsb' 16 16).toNat = k.toNat + 1
      ∧ (t.out.resp.extractLsb' 32 16).toNat + (readCell s k.toNat).toNat / 2 = s.cfg.plotBottom
      ∧ (t.out.resp.extractLsb' 48 16).toNat + (readCell s (k.toNat + 1)).toNat / 2 = s.cfg.plotBottom
      ∧ SameButResponse s t)
    ∧ (s.cfg.width < k.toNat + 2 →
      exec (.segment k) s = .fault (.segIndex s.cycle (0x09000000#32 ||| k.setWidth 32)))

/-- HILITE of a menu row answers whether it is the selected one, whatever the view; a row `>= N_ITEMS`
faults (R201). -/
def Obligations.HiliteAnswersSelectedRow : Prop :=
  ∀ (s : State) (r : Half),
    (r.toNat < s.cfg.nItems → ∃ t, exec (.hilite r) s = .next t
      ∧ t.out.resp = (if s.selector = r.toNat + 1 then 1#64 else 0#64) ∧ SameButResponse s t)
    ∧ (s.cfg.nItems ≤ r.toNat →
      exec (.hilite r) s = .fault (.rowIndex s.cycle (0x0A000000#32 ||| r.setWidth 32)))

/-- COMPLETION under `Drop` (R140): appended at `CURSOR` when neither masked nor full, else dropped; never
a fault. -/
def Obligations.CompletionUnderDrop : Prop :=
  ∀ (s : State) (d : Byte), s.cfg.maskedPolicy = .drop →
    (s.masked = true ∨ s.cfg.width < s.cursor →
      ∃ t, exec (.completion d) s = .next t ∧ t.out.resp = s.out.resp ∧ SameButResponse s t)
    ∧ (s.masked = false → s.cursor ≤ s.cfg.width →
      ∃ t, exec (.completion d) s = .next t ∧ readCell t s.cursor = d ∧ t.cursor = s.cursor + 1
        ∧ (full t = true ↔ s.cursor = s.cfg.width) ∧ SameStoreBut s.cursor s t
        ∧ t.masked = s.masked ∧ t.out.resp = s.out.resp
        ∧ SameLatch s t ∧ SameClock s t ∧ SamePins s t ∧ SameMenu s t ∧ SameRest s t)

/-- COMPLETION under `LatchOne` (R141): masked, the latest is held; unmasked, it supersedes what is held
and is appended at `CURSOR` unless full. A cycle without completion appends what is held once unmasked. -/
def Obligations.CompletionUnderLatchOne : Prop :=
  ∀ (s : State) (d : Byte), s.cfg.maskedPolicy = .latchOne →
    (s.masked = true →
      ∃ t, exec (.completion d) s = .next t ∧ t.pendV = true ∧ t.pendD = d ∧ t.out.resp = s.out.resp
        ∧ SameStore s t ∧ SameCursorMask s t ∧ SameClock s t ∧ SamePins s t ∧ SameMenu s t
        ∧ SameRest s t)
    ∧ (s.masked = false → s.cfg.width < s.cursor →
      ∃ t, exec (.completion d) s = .next t ∧ t.pendV = false ∧ t.out.resp = s.out.resp
        ∧ SameStore s t ∧ SameCursorMask s t ∧ t.pendD = s.pendD ∧ SameClock s t ∧ SamePins s t
        ∧ SameMenu s t ∧ SameRest s t)
    ∧ (s.masked = false → s.cursor ≤ s.cfg.width →
      ∃ t, exec (.completion d) s = .next t ∧ t.pendV = false ∧ readCell t s.cursor = d
        ∧ t.cursor = s.cursor + 1 ∧ SameStoreBut s.cursor s t ∧ t.masked = s.masked
        ∧ t.pendD = s.pendD ∧ t.out.resp = s.out.resp ∧ SameClock s t ∧ SamePins s t ∧ SameMenu s t
        ∧ SameRest s t)
    ∧ (s.masked = true ∨ s.pendV = false → serviceLatch s = s)
    ∧ (s.masked = false → s.pendV = true →
      ∀ t, exec (.completion s.pendD) s = .next t → serviceLatch s = t)

/-- EDGE_A performs ADVANCE (R181) and EDGE_B performs CONFIRM (R182), in every state. -/
def Obligations.EdgesMoveMenu : Prop :=
  ∀ s : State,
    (∃ t, exec .edgeA s = .next t
      ∧ t.selector = (if s.selector ≥ s.cfg.nItems then 1 else s.selector + 1) ∧ t.view = s.view
      ∧ t.out.resp = s.out.resp ∧ SameStore s t ∧ SameCursorMask s t ∧ SameLatch s t ∧ SameClock s t
      ∧ SamePins s t ∧ SameRest s t)
    ∧ (∃ t, exec .edgeB s = .next t
      ∧ (t.view = .menu ↔ s.view = .scope) ∧ t.selector = s.selector
      ∧ t.out.resp = s.out.resp ∧ SameStore s t ∧ SameCursorMask s t ∧ SameLatch s t ∧ SameClock s t
      ∧ SamePins s t ∧ SameRest s t)

/-! ## Rules over all operations -/

/-- R54: the reading commands have no side effect, and one repeated in the next cycle, with no event in
either, answers the same (in the states of the two invariants); an accepted append raises `CURSOR` by one;
CLEAR sets it to 0 and does not touch the store. -/
def Obligations.ReadsHaveNoSideEffect : Prop :=
  (∀ (s t : State) (i : Instr), isRead i = true → exec i s = .next t →
    SameButResponse s t ∧ ∃ u, exec i t = .next u ∧ u.out.resp = t.out.resp ∧ SameButResponse t u)
  ∧ (∀ (s t : State) (r : CycleRecord) (i : Instr), Inv s → StoreInv s → Issues s r i → isRead i = true →
    r.adcValid = false → r.pinA = s.prevA → r.pinB = s.prevB → step s = .next t → Issues t r i →
    ∃ u, step t = .next u ∧ u.out.resp = t.out.resp)
  ∧ (∀ (s t : State) (d : Byte), s.masked = false → s.cursor ≤ s.cfg.width →
    exec (.completion d) s = .next t → t.cursor = s.cursor + 1)
  ∧ (∀ s t : State, exec .clear s = .next t → t.cursor = 0 ∧ SameStore s t)

/-- An operation completes exactly when it is legal (R79, R232, R253 (e)); it is never refused. Events are
always legal. -/
def Obligations.OperationsCompleteWhenLegal : Prop :=
  ∀ (s : State) (i : Instr),
    ((∃ t, exec i s = .next t) ↔ legalCommand s i = true)
    ∧ (∀ r, exec i s ≠ .refused r)
    ∧ (i.isCommand = false → legalCommand s i = true)

/-- R230, R232, R101: a fault records the cycle and the command word, and has the code of its cause. In a
cycle, a word with a reserved opcode raises code 1, one with a one in an unused field code 2, one that spells
a command the fault of that command's own check, codes 3 to 8; and a cycle that faults is one of these. -/
def Obligations.FaultsRecordTheirCommand : Prop :=
  (∀ (s : State) (r : CycleRecord), Runs s r →
    (decodeCommand r.cmd = .error .opcode → step s = .fault (.opcode s.cycle r.cmd))
    ∧ (decodeCommand r.cmd = .error .rsvBits → step s = .fault (.rsvBits s.cycle r.cmd))
    ∧ (∀ i f, decodeCommand r.cmd = .ok i → exec i s = .fault f → step s = .fault f))
  ∧ (∀ (s : State) (r : CycleRecord) (f : Fault), Runs s r → step s = .fault f →
    faultCycle f = s.cycle ∧ faultWord f = r.cmd
    ∧ ((faultCode f = 1 ∧ decodeCommand r.cmd = .error .opcode)
      ∨ (faultCode f = 2 ∧ decodeCommand r.cmd = .error .rsvBits)
      ∨ (3 ≤ faultCode f ∧ ∃ i, decodeCommand r.cmd = .ok i ∧ exec i s = .fault f)))
  ∧ ∀ (s : State) (i : Instr) (f : Fault), exec i s = .fault f →
    faultCycle f = s.cycle ∧ faultWord f = commandWord i
    ∧ ((faultCode f = 3 ∧ i = .cfgper 0#16)
      ∨ (faultCode f = 4 ∧ i = .start ∧ s.running = false ∧ s.period = 0#16)
      ∨ (faultCode f = 5 ∧ ∃ a, i = .rdbuf a ∧ s.cfg.width < a.toNat)
      ∨ (faultCode f = 6 ∧ ∃ k, i = .segment k ∧ s.cfg.width < k.toNat + 2)
      ∨ (faultCode f = 7 ∧ ∃ r, i = .hilite r ∧ s.cfg.nItems ≤ r.toNat)
      ∨ (faultCode f = 8 ∧ ∃ idx, i = .rdreg idx ∧ 4 < idx.toNat))

/-- Which operation writes which piece of state (R36, R76, R57): no other does. -/
def Obligations.EachFieldHasItsWriters : Prop :=
  ∀ (s t : State) (i : Instr), exec i s = .next t →
    ((∃ a, readCell t a ≠ readCell s a) → ∃ d, i = .completion d)
    ∧ (t.cursor ≠ s.cursor → i = .clear ∨ ∃ d, i = .completion d)
    ∧ (t.masked ≠ s.masked → i = .mask ∨ i = .unmask)
    ∧ (¬ SameLatch s t → ∃ d, i = .completion d)
    ∧ (t.period ≠ s.period → ∃ p, i = .cfgper p)
    ∧ (t.running ≠ s.running → i = .start)
    ∧ (t.count ≠ s.count → i = .start)
    ∧ (t.selector ≠ s.selector → i = .edgeA)
    ∧ (t.view ≠ s.view → i = .edgeB)
    ∧ SamePins s t ∧ SameRest s t
    ∧ (i.isCommand = false → t.out.resp = s.out.resp)

/-- A cycle out of reset completes exactly when its word spells a legal command; the events, whatever they
are, stop nothing, and it is never refused (R79, R232, R234). -/
def Obligations.CycleStopsOnlyOnItsCommand : Prop :=
  ∀ (s : State) (r : CycleRecord), Runs s r →
    ((∃ t, step s = .next t) ↔ ∃ i, decodeCommand r.cmd = .ok i ∧ legalCommand s i = true)
    ∧ (∀ f, step s ≠ .refused f)

/-- The hidden state cannot be read (R40): states that agree on all but `COUNT`, `PREV_A`, `PREV_B`,
`PEND_V` and `PEND_D` give every command the same outcome and the same `RESP`. -/
def Obligations.HiddenStateIsUnreadable : Prop :=
  ∀ (s s' : State) (i : Instr), i.isCommand = true → SameVisible s s' →
    ((∃ t, exec i s = .next t) ↔ (∃ t, exec i s' = .next t))
    ∧ (∀ t t', exec i s = .next t → exec i s' = .next t' →
        t.out.resp = t'.out.resp ∧ SameVisible t t')

/-! ## The cycle -/

/-- R102: `RESP` is what the command set (0 for a command that returns nothing), `TRIG` what phase 5 set;
`FULL_OUT`, `VIEW_OUT`, `RANGE_OUT` show the state at the start of the cycle. -/
def Obligations.OutputsOfACycle : Prop :=
  ∀ (s t w : State) (r : CycleRecord) (i : Instr), Issues s r i → exec i (popInput s) = .next w →
    step s = .next t →
    t.out.resp = w.out.resp ∧ (answersNothing i = true → t.out.resp = 0#64)
    ∧ (t.out.trig = true ↔ s.running = true ∧ w.period.toNat ≤ w.count.toNat + 1)
    ∧ t.out.fullOut = full s ∧ (t.out.viewOut = true ↔ s.view = .menu) ∧ t.out.rangeOut = s.range

/-- R122: stopped or started in this cycle, no trigger; running, the counter steps without wrapping, or
returns to 0 with a trigger when it reaches the period, the period being this cycle's. -/
def Obligations.CounterStepsEachCycle : Prop :=
  ∀ (s t : State) (r : CycleRecord), Runs s r → step s = .next t →
    (s.running = false → t.out.trig = false ∧ (t.running = false → t.count = s.count))
    ∧ (s.running = true → t.period.toNat ≤ s.count.toNat + 1 → t.out.trig = true ∧ t.count = 0#16)
    ∧ (s.running = true → s.count.toNat + 1 < t.period.toNat →
        t.out.trig = false ∧ t.count.toNat = s.count.toNat + 1)
    ∧ (t.period = s.period ∨ r.cmd.extractLsb' 24 8 = 0x01#8 ∧ t.period = r.cmd.extractLsb' 0 16)

/-- R123: after a START accepted with `PERIOD = P`, and with `PERIOD` not changed, `TRIG` is asserted in
the cycles `P`, `2P`, `3P`, ... after it and in no other. -/
def Obligations.TriggerSchedule : Prop :=
  ∀ (s t : State) (r : CycleRecord) (n : Nat), Issues s r .start → s.running = false →
    n < s.inputs.length → (∀ x ∈ s.inputs.take (n + 1), keepsPeriod s.period x = true) →
    run (n + 1) s = .next t →
    (t.out.trig = true ↔ ∃ k, 1 ≤ k ∧ n = k * s.period.toNat)

/-- R124: CFGPER to `P2` while running with `COUNT = n`: when `n + 1 >= P2` the trigger fires in that cycle
and every `P2` cycles after it; else first `P2 - 1 - n` cycles later, then every `P2`. -/
def Obligations.PeriodChangeSchedule : Prop :=
  ∀ (s t : State) (r : CycleRecord) (p : Half) (m : Nat), Issues s r (.cfgper p) → s.running = true →
    m < s.inputs.length → (∀ x ∈ (s.inputs.take (m + 1)).tail, keepsPeriod p x = true) →
    run (m + 1) s = .next t →
    (p.toNat ≤ s.count.toNat + 1 →
      (t.out.trig = true ↔ ∃ k, m = k * p.toNat))
    ∧ (s.count.toNat + 1 < p.toNat →
      (t.out.trig = true ↔ ∃ k, m = (p.toNat - 1 - s.count.toNat) + k * p.toNat))

/-- R28: START sets `RUNNING`; no cycle clears it but a reset cycle; power-on clears it. -/
def Obligations.RunningIsNeverCleared : Prop :=
  (∀ s t : State, exec .start s = .next t → t.running = true)
  ∧ (∀ s t : State, step s = .next t → s.running = true → (nextInput s).rstN = true → t.running = true)
  ∧ (∀ (s t : State) (i : Instr), exec i s = .next t → s.running = true → t.running = true)
  ∧ (∀ c e ins, (State.powerOn c e ins).running = false)

/-- R59: while `FULL = 1` no cycle but one with CLEAR (or in reset) changes a cell or `CURSOR`, masked or
not. -/
def Obligations.FullStoreIsStable : Prop :=
  ∀ (s t : State) (r : CycleRecord), Runs s r → full s = true → step s = .next t →
    r.cmd ≠ 0x05000000#32 → SameStore s t ∧ t.cursor = s.cursor ∧ full t = true

/-- R58: from the cycle of a MASK until an UNMASK, no completion changes a cell or `CURSOR`: only a CLEAR
moves `CURSOR`. -/
def Obligations.MaskHoldsTheStore : Prop :=
  ∀ (s t : State) (r : CycleRecord), Runs s r → (s.masked = true ∨ r.cmd = 0x03000000#32) →
    r.cmd ≠ 0x04000000#32 → step s = .next t →
    SameStore s t ∧ t.masked = true
    ∧ (r.cmd ≠ 0x05000000#32 → t.cursor = s.cursor) ∧ (r.cmd = 0x05000000#32 → t.cursor = 0)

/-- R147: after CLEAR `FULL` is 0, every cell keeps its value, and the next completion accepted writes
`BUF[0]` and no other cell. -/
def Obligations.ClearThenAppend : Prop :=
  (∀ s t : State, exec .clear s = .next t → full t = false ∧ t.cursor = 0 ∧ SameStore s t)
  ∧ (∀ (s t : State) (d : Byte), s.cursor = 0 → s.masked = false → exec (.completion d) s = .next t →
    readCell t 0 = d ∧ t.cursor = 1 ∧ SameStoreBut 0 s t)

/-- R100: a CLEAR and an unmasked completion in one cycle put the sample in `BUF[0]`; an UNMASK and a
completion in one cycle append it; a MASK and a completion in one cycle drop it or hold it. -/
def Obligations.CommandComesBeforeCompletion : Prop :=
  ∀ (s t : State) (r : CycleRecord), Runs s r → r.adcValid = true → step s = .next t →
    (r.cmd = 0x05000000#32 → s.masked = false →
      readCell t 0 = r.adcData ∧ t.cursor = 1 ∧ SameStoreBut 0 s t)
    ∧ (r.cmd = 0x04000000#32 → s.cursor ≤ s.cfg.width →
      readCell t s.cursor = r.adcData ∧ t.cursor = s.cursor + 1 ∧ SameStoreBut s.cursor s t
        ∧ t.masked = false)
    ∧ (r.cmd = 0x03000000#32 → SameStore s t ∧ t.cursor = s.cursor ∧ t.masked = true)

/-- R146: from `CURSOR = 0`, unmasked, each accepted completion raises `CURSOR` by one, `FULL` becomes 1
with the `WIDTH + 1`-th, not before, and stays 1 until a CLEAR (or reset). -/
def Obligations.FullnessLaw : Prop :=
  (∀ (s t : State) (d : Byte), s.masked = false → s.cursor ≤ s.cfg.width →
    exec (.completion d) s = .next t → t.cursor = s.cursor + 1)
  ∧ (∀ (s t : State) (k : Nat), s.cursor = 0 → s.masked = false → s.pendV = false →
    k ≤ s.inputs.length → (∀ x ∈ s.inputs.take k, keepsCapture x = true) → run k s = .next t →
    t.cursor = min (samplesOf (s.inputs.take k)).length (s.cfg.width + 1)
    ∧ (full t = true ↔ s.cfg.width + 1 ≤ (samplesOf (s.inputs.take k)).length))
  ∧ (∀ (s t : State) (r : CycleRecord), Runs s r → full s = true → step s = .next t →
    r.cmd ≠ 0x05000000#32 → full t = true)

/-- R148: from `CURSOR = 0`, unmasked, the cells below `CURSOR` hold the completions' samples in arrival
order, `BUF[0]` the first; when `FULL`, that is all of `BUF[0..WIDTH]`. -/
def Obligations.CaptureContent : Prop :=
  ∀ (s t : State) (k : Nat), s.cursor = 0 → s.masked = false → s.pendV = false →
    k ≤ s.inputs.length → (∀ x ∈ s.inputs.take k, keepsCapture x = true) → run k s = .next t →
    (∀ j, j < t.cursor → (samplesOf (s.inputs.take k))[j]? = some (readCell t j))
    ∧ (full t = true → ∀ j, j ≤ s.cfg.width → (samplesOf (s.inputs.take k))[j]? = some (readCell t j))

/-- R180 to R183, R186: in every cycle out of reset, whatever its command, its completion and the flags,
an active edge on pin A advances the selector, one on pin B toggles the view, the history takes the
levels; without the edge nothing happens. -/
def Obligations.ButtonsActEveryCycle : Prop :=
  ∀ (s t : State) (r : CycleRecord), Runs s r → step s = .next t →
    t.prevA = r.pinA ∧ t.prevB = r.pinB
    ∧ t.selector = (if (s.cfg.polA = .rising ∧ s.prevA = false ∧ r.pinA = true)
          ∨ (s.cfg.polA = .falling ∧ s.prevA = true ∧ r.pinA = false)
        then (if s.selector ≥ s.cfg.nItems then 1 else s.selector + 1) else s.selector)
    ∧ (((s.cfg.polB = .rising ∧ s.prevB = false ∧ r.pinB = true)
          ∨ (s.cfg.polB = .falling ∧ s.prevB = true ∧ r.pinB = false)) → t.view ≠ s.view)
    ∧ (¬ ((s.cfg.polB = .rising ∧ s.prevB = false ∧ r.pinB = true)
          ∨ (s.cfg.polB = .falling ∧ s.prevB = true ∧ r.pinB = false)) → t.view = s.view)

/-- R184: a pin that goes `n` times from the idle level to the other and back, one level a cycle, raises
exactly `n` events, whatever its polarity: with `Rising` in the cycles where it returns high, with
`Falling` where it goes low. -/
def Obligations.BounceLaw : Prop :=
  ∀ (s t : State) (n m : Nat), m ≤ 2 * n → 2 * n ≤ s.inputs.length →
    (∀ x ∈ s.inputs.take (2 * n), x.rstN = true) → run m s = .next t →
    (s.prevA = true → pinLevels 41 (s.inputs.take (2 * n)) = bounceLevels n →
      t.selector = (advanced s.cfg.nItems)^[if s.cfg.polA = .rising then m / 2 else (m + 1) / 2] s.selector)
    ∧ (s.prevB = true → pinLevels 42 (s.inputs.take (2 * n)) = bounceLevels n →
      t.view = toggled^[if s.cfg.polB = .rising then m / 2 else (m + 1) / 2] s.view)

/-- R202: (a) a cycle that ends with `SELECTOR = k` in `1..N_ITEMS` ends with exactly line `k-1` high;
(b) the update repeated changes nothing more; (c) with `SELECTOR = 0` the range is kept; (d) the range is
one-hot at every cycle's end, from every state where R42 holds. From power-on, (c) is `RANGE_RESET`. -/
def Obligations.RangeFollowsSelector : Prop :=
  (∀ (s t : State) (r : CycleRecord), Runs s r → step s = .next t →
    (1 ≤ t.selector → t.selector ≤ t.cfg.nItems →
      ∀ b, b < 32 → (t.range.getLsbD b = true ↔ b = t.selector - 1))
    ∧ (t.selector = 0 → t.range = s.range))
  ∧ (∀ s : State, rangeUpdate (rangeUpdate s) = rangeUpdate s)
  ∧ (∀ (c : Config) (e : Nat) (ins : List CycleInput) (k : Nat) (t : State),
    run k (State.powerOn c e ins) = .next t → t.selector = 0 → t.range = c.rangeReset)
  ∧ (∀ s t : State, Inv s → step s = .next t →
    ∃ k, k < t.cfg.nItems ∧ ∀ b, b < 32 → (t.range.getLsbD b = true ↔ b = k))

/-- R203: with `SELECTOR = k` in `1..N_ITEMS` exactly one row, `k - 1`, answers 1 and all others 0. -/
def Obligations.HighlightLaw : Prop :=
  ∀ s : State, legalConfig s.cfg = true → 1 ≤ s.selector → s.selector ≤ s.cfg.nItems →
    (∃ r : Half, r.toNat = s.selector - 1 ∧ ∃ t, exec (.hilite r) s = .next t ∧ t.out.resp = 1#64)
    ∧ (∀ r : Half, r.toNat < s.cfg.nItems → r.toNat ≠ s.selector - 1 →
      ∃ t, exec (.hilite r) s = .next t ∧ t.out.resp = 0#64)

/-- R163: the baseline and the top; the row falls as the sample rises; pairs of samples share a row; the
rows are exactly `PLOT_BOTTOM - 127 .. PLOT_BOTTOM`; `PLOT_BOTTOM` alone of the parameters matters. -/
def Obligations.RowLaws : Prop :=
  ∀ c : Config, legalConfig c = true →
    (row c 0#8 = c.plotBottom ∧ row c 1#8 = c.plotBottom)
    ∧ (row c 254#8 = c.plotBottom - 127 ∧ row c 255#8 = c.plotBottom - 127 ∧ c.plotTop ≤ row c 255#8)
    ∧ (∀ d e : Byte, d.toNat ≤ e.toNat → row c e ≤ row c d)
    ∧ (∀ k : Nat, k ≤ 127 → row c (BitVec.ofNat 8 (2 * k)) = row c (BitVec.ofNat 8 (2 * k + 1)))
    ∧ (∀ y : Nat, (∃ d : Byte, row c d = y) ↔ c.plotBottom - 127 ≤ y ∧ y ≤ c.plotBottom)
    ∧ (∀ (c' : Config) (d : Byte), c'.plotBottom = c.plotBottom → row c' d = row c d)

/-- R164: the segments of a capture are `SEGMENT 0 .. WIDTH-2`, no other completes, and their end points
are exactly the columns `0 .. WIDTH-1`. -/
def Obligations.SegmentsCoverTheColumns : Prop :=
  ∀ s : State, legalConfig s.cfg = true →
    (∀ k : Half, (∃ t, exec (.segment k) s = .next t) ↔ k.toNat ≤ s.cfg.width - 2)
    ∧ (∀ col : Nat, col ≤ s.cfg.width - 1 ↔
        ∃ (k : Half) (t : State), exec (.segment k) s = .next t
          ∧ ((t.out.resp.extractLsb' 0 16).toNat = col ∨ (t.out.resp.extractLsb' 16 16).toNat = col))

/-- R100, R283: a command sees the state at the start of its cycle, whatever completion and edges the cycle
brings: every command answers what it answers in that state; so RDBUF, SEGMENT, RDREG and HILITE answer the
cells, the registers and the selector the cycle started with. -/
def Obligations.CommandsSeeTheStartOfTheCycle : Prop :=
  ∀ (s t : State) (r : CycleRecord), Runs s r → step s = .next t →
    (∀ i, decodeCommand r.cmd = .ok i → ∃ w, exec i s = .next w ∧ t.out.resp = w.out.resp)
    ∧ (∀ a, decodeCommand r.cmd = .ok (.rdbuf a) → t.out.resp = (readCell s a.toNat).setWidth 64)
    ∧ (∀ k, decodeCommand r.cmd = .ok (.segment k) →
        (t.out.resp.extractLsb' 0 16).toNat = k.toNat
        ∧ (t.out.resp.extractLsb' 16 16).toNat = k.toNat + 1
        ∧ (t.out.resp.extractLsb' 32 16).toNat + (readCell s k.toNat).toNat / 2 = s.cfg.plotBottom
        ∧ (t.out.resp.extractLsb' 48 16).toNat + (readCell s (k.toNat + 1)).toNat / 2
          = s.cfg.plotBottom)
    ∧ (decodeCommand r.cmd = .ok (.rdreg 0#16) →
        t.out.resp.getLsbD 0 = full s ∧ t.out.resp.getLsbD 1 = s.masked
        ∧ t.out.resp.getLsbD 2 = s.running ∧ t.out.resp.getLsbD 3 = decide (s.view = .menu)
        ∧ t.out.resp.extractLsb' 4 60 = 0#60)
    ∧ (decodeCommand r.cmd = .ok (.rdreg 1#16) → s.cursor ≤ 65536 → t.out.resp.toNat = s.cursor)
    ∧ (decodeCommand r.cmd = .ok (.rdreg 2#16) → t.out.resp.toNat = s.period.toNat)
    ∧ (decodeCommand r.cmd = .ok (.rdreg 3#16) → s.selector ≤ 32 → t.out.resp.toNat = s.selector)
    ∧ (decodeCommand r.cmd = .ok (.rdreg 4#16) → t.out.resp.toNat = s.range.toNat)
    ∧ (∀ m, decodeCommand r.cmd = .ok (.hilite m) →
        t.out.resp = (if s.selector = m.toNat + 1 then 1#64 else 0#64))

/-- R126: a Converter that keeps its contract presents, `lat` cycles after a trigger that finds it idle,
exactly one completion, and none before; what triggers come in between starts nothing. The contract is the
model's writing of R126 (log entry 11). -/
def Obligations.ConverterAnswersATrigger : Prop :=
  ∀ (lat : Nat) (before after : List (Bool × Bool)) (v : Bool), 1 ≤ lat → before.length + 1 = lat →
    converterKeeps lat 0 ((true, false) :: before ++ (false, v) :: after) = true →
    (∀ x ∈ before, x.2 = false) ∧ v = true ∧ converterKeeps lat 0 after = true
end

