-- ==== Sys2Proof/Laws/State.lean ====
section
/-! SUPPORT. What each named update of Machine/Ops.lean does to each field: one lemma per field per
update, so that no proof unfolds a record update. -/

namespace Sys2Proof.Machine

/-! ### `setCursor` -/

@[simp] theorem setCursor_cfg (n : Nat) (s : State) : (setCursor n s).cfg = s.cfg := rfl
@[simp] theorem setCursor_buf (n : Nat) (s : State) : (setCursor n s).buf = s.buf := rfl
@[simp] theorem setCursor_cursor (n : Nat) (s : State) : (setCursor n s).cursor = n := rfl
@[simp] theorem setCursor_masked (n : Nat) (s : State) : (setCursor n s).masked = s.masked := rfl
@[simp] theorem setCursor_pendV (n : Nat) (s : State) : (setCursor n s).pendV = s.pendV := rfl
@[simp] theorem setCursor_pendD (n : Nat) (s : State) : (setCursor n s).pendD = s.pendD := rfl
@[simp] theorem setCursor_period (n : Nat) (s : State) : (setCursor n s).period = s.period := rfl
@[simp] theorem setCursor_running (n : Nat) (s : State) : (setCursor n s).running = s.running := rfl
@[simp] theorem setCursor_count (n : Nat) (s : State) : (setCursor n s).count = s.count := rfl
@[simp] theorem setCursor_prevA (n : Nat) (s : State) : (setCursor n s).prevA = s.prevA := rfl
@[simp] theorem setCursor_prevB (n : Nat) (s : State) : (setCursor n s).prevB = s.prevB := rfl
@[simp] theorem setCursor_selector (n : Nat) (s : State) : (setCursor n s).selector = s.selector := rfl
@[simp] theorem setCursor_view (n : Nat) (s : State) : (setCursor n s).view = s.view := rfl
@[simp] theorem setCursor_range (n : Nat) (s : State) : (setCursor n s).range = s.range := rfl
@[simp] theorem setCursor_fault (n : Nat) (s : State) : (setCursor n s).fault = s.fault := rfl
@[simp] theorem setCursor_cycle (n : Nat) (s : State) : (setCursor n s).cycle = s.cycle := rfl
@[simp] theorem setCursor_epoch (n : Nat) (s : State) : (setCursor n s).epoch = s.epoch := rfl
@[simp] theorem setCursor_inputs (n : Nat) (s : State) : (setCursor n s).inputs = s.inputs := rfl
@[simp] theorem setCursor_out (n : Nat) (s : State) : (setCursor n s).out = s.out := rfl

/-! ### `setMasked` -/

@[simp] theorem setMasked_cfg (b : Bool) (s : State) : (setMasked b s).cfg = s.cfg := rfl
@[simp] theorem setMasked_buf (b : Bool) (s : State) : (setMasked b s).buf = s.buf := rfl
@[simp] theorem setMasked_cursor (b : Bool) (s : State) : (setMasked b s).cursor = s.cursor := rfl
@[simp] theorem setMasked_masked (b : Bool) (s : State) : (setMasked b s).masked = b := rfl
@[simp] theorem setMasked_pendV (b : Bool) (s : State) : (setMasked b s).pendV = s.pendV := rfl
@[simp] theorem setMasked_pendD (b : Bool) (s : State) : (setMasked b s).pendD = s.pendD := rfl
@[simp] theorem setMasked_period (b : Bool) (s : State) : (setMasked b s).period = s.period := rfl
@[simp] theorem setMasked_running (b : Bool) (s : State) : (setMasked b s).running = s.running := rfl
@[simp] theorem setMasked_count (b : Bool) (s : State) : (setMasked b s).count = s.count := rfl
@[simp] theorem setMasked_prevA (b : Bool) (s : State) : (setMasked b s).prevA = s.prevA := rfl
@[simp] theorem setMasked_prevB (b : Bool) (s : State) : (setMasked b s).prevB = s.prevB := rfl
@[simp] theorem setMasked_selector (b : Bool) (s : State) : (setMasked b s).selector = s.selector := rfl
@[simp] theorem setMasked_view (b : Bool) (s : State) : (setMasked b s).view = s.view := rfl
@[simp] theorem setMasked_range (b : Bool) (s : State) : (setMasked b s).range = s.range := rfl
@[simp] theorem setMasked_fault (b : Bool) (s : State) : (setMasked b s).fault = s.fault := rfl
@[simp] theorem setMasked_cycle (b : Bool) (s : State) : (setMasked b s).cycle = s.cycle := rfl
@[simp] theorem setMasked_epoch (b : Bool) (s : State) : (setMasked b s).epoch = s.epoch := rfl
@[simp] theorem setMasked_inputs (b : Bool) (s : State) : (setMasked b s).inputs = s.inputs := rfl
@[simp] theorem setMasked_out (b : Bool) (s : State) : (setMasked b s).out = s.out := rfl

/-! ### `latchPend` -/

@[simp] theorem latchPend_cfg (d : Byte) (s : State) : (latchPend d s).cfg = s.cfg := rfl
@[simp] theorem latchPend_buf (d : Byte) (s : State) : (latchPend d s).buf = s.buf := rfl
@[simp] theorem latchPend_cursor (d : Byte) (s : State) : (latchPend d s).cursor = s.cursor := rfl
@[simp] theorem latchPend_masked (d : Byte) (s : State) : (latchPend d s).masked = s.masked := rfl
@[simp] theorem latchPend_pendV (d : Byte) (s : State) : (latchPend d s).pendV = true := rfl
@[simp] theorem latchPend_pendD (d : Byte) (s : State) : (latchPend d s).pendD = d := rfl
@[simp] theorem latchPend_period (d : Byte) (s : State) : (latchPend d s).period = s.period := rfl
@[simp] theorem latchPend_running (d : Byte) (s : State) : (latchPend d s).running = s.running := rfl
@[simp] theorem latchPend_count (d : Byte) (s : State) : (latchPend d s).count = s.count := rfl
@[simp] theorem latchPend_prevA (d : Byte) (s : State) : (latchPend d s).prevA = s.prevA := rfl
@[simp] theorem latchPend_prevB (d : Byte) (s : State) : (latchPend d s).prevB = s.prevB := rfl
@[simp] theorem latchPend_selector (d : Byte) (s : State) : (latchPend d s).selector = s.selector := rfl
@[simp] theorem latchPend_view (d : Byte) (s : State) : (latchPend d s).view = s.view := rfl
@[simp] theorem latchPend_range (d : Byte) (s : State) : (latchPend d s).range = s.range := rfl
@[simp] theorem latchPend_fault (d : Byte) (s : State) : (latchPend d s).fault = s.fault := rfl
@[simp] theorem latchPend_cycle (d : Byte) (s : State) : (latchPend d s).cycle = s.cycle := rfl
@[simp] theorem latchPend_epoch (d : Byte) (s : State) : (latchPend d s).epoch = s.epoch := rfl
@[simp] theorem latchPend_inputs (d : Byte) (s : State) : (latchPend d s).inputs = s.inputs := rfl
@[simp] theorem latchPend_out (d : Byte) (s : State) : (latchPend d s).out = s.out := rfl

/-! ### `dropPend` -/

@[simp] theorem dropPend_cfg (s : State) : (dropPend s).cfg = s.cfg := rfl
@[simp] theorem dropPend_buf (s : State) : (dropPend s).buf = s.buf := rfl
@[simp] theorem dropPend_cursor (s : State) : (dropPend s).cursor = s.cursor := rfl
@[simp] theorem dropPend_masked (s : State) : (dropPend s).masked = s.masked := rfl
@[simp] theorem dropPend_pendV (s : State) : (dropPend s).pendV = false := rfl
@[simp] theorem dropPend_pendD (s : State) : (dropPend s).pendD = s.pendD := rfl
@[simp] theorem dropPend_period (s : State) : (dropPend s).period = s.period := rfl
@[simp] theorem dropPend_running (s : State) : (dropPend s).running = s.running := rfl
@[simp] theorem dropPend_count (s : State) : (dropPend s).count = s.count := rfl
@[simp] theorem dropPend_prevA (s : State) : (dropPend s).prevA = s.prevA := rfl
@[simp] theorem dropPend_prevB (s : State) : (dropPend s).prevB = s.prevB := rfl
@[simp] theorem dropPend_selector (s : State) : (dropPend s).selector = s.selector := rfl
@[simp] theorem dropPend_view (s : State) : (dropPend s).view = s.view := rfl
@[simp] theorem dropPend_range (s : State) : (dropPend s).range = s.range := rfl
@[simp] theorem dropPend_fault (s : State) : (dropPend s).fault = s.fault := rfl
@[simp] theorem dropPend_cycle (s : State) : (dropPend s).cycle = s.cycle := rfl
@[simp] theorem dropPend_epoch (s : State) : (dropPend s).epoch = s.epoch := rfl
@[simp] theorem dropPend_inputs (s : State) : (dropPend s).inputs = s.inputs := rfl
@[simp] theorem dropPend_out (s : State) : (dropPend s).out = s.out := rfl

/-! ### `setPeriod` -/

@[simp] theorem setPeriod_cfg (p : Half) (s : State) : (setPeriod p s).cfg = s.cfg := rfl
@[simp] theorem setPeriod_buf (p : Half) (s : State) : (setPeriod p s).buf = s.buf := rfl
@[simp] theorem setPeriod_cursor (p : Half) (s : State) : (setPeriod p s).cursor = s.cursor := rfl
@[simp] theorem setPeriod_masked (p : Half) (s : State) : (setPeriod p s).masked = s.masked := rfl
@[simp] theorem setPeriod_pendV (p : Half) (s : State) : (setPeriod p s).pendV = s.pendV := rfl
@[simp] theorem setPeriod_pendD (p : Half) (s : State) : (setPeriod p s).pendD = s.pendD := rfl
@[simp] theorem setPeriod_period (p : Half) (s : State) : (setPeriod p s).period = p := rfl
@[simp] theorem setPeriod_running (p : Half) (s : State) : (setPeriod p s).running = s.running := rfl
@[simp] theorem setPeriod_count (p : Half) (s : State) : (setPeriod p s).count = s.count := rfl
@[simp] theorem setPeriod_prevA (p : Half) (s : State) : (setPeriod p s).prevA = s.prevA := rfl
@[simp] theorem setPeriod_prevB (p : Half) (s : State) : (setPeriod p s).prevB = s.prevB := rfl
@[simp] theorem setPeriod_selector (p : Half) (s : State) : (setPeriod p s).selector = s.selector := rfl
@[simp] theorem setPeriod_view (p : Half) (s : State) : (setPeriod p s).view = s.view := rfl
@[simp] theorem setPeriod_range (p : Half) (s : State) : (setPeriod p s).range = s.range := rfl
@[simp] theorem setPeriod_fault (p : Half) (s : State) : (setPeriod p s).fault = s.fault := rfl
@[simp] theorem setPeriod_cycle (p : Half) (s : State) : (setPeriod p s).cycle = s.cycle := rfl
@[simp] theorem setPeriod_epoch (p : Half) (s : State) : (setPeriod p s).epoch = s.epoch := rfl
@[simp] theorem setPeriod_inputs (p : Half) (s : State) : (setPeriod p s).inputs = s.inputs := rfl
@[simp] theorem setPeriod_out (p : Half) (s : State) : (setPeriod p s).out = s.out := rfl

/-! ### `startClock` -/

@[simp] theorem startClock_cfg (s : State) : (startClock s).cfg = s.cfg := rfl
@[simp] theorem startClock_buf (s : State) : (startClock s).buf = s.buf := rfl
@[simp] theorem startClock_cursor (s : State) : (startClock s).cursor = s.cursor := rfl
@[simp] theorem startClock_masked (s : State) : (startClock s).masked = s.masked := rfl
@[simp] theorem startClock_pendV (s : State) : (startClock s).pendV = s.pendV := rfl
@[simp] theorem startClock_pendD (s : State) : (startClock s).pendD = s.pendD := rfl
@[simp] theorem startClock_period (s : State) : (startClock s).period = s.period := rfl
@[simp] theorem startClock_running (s : State) : (startClock s).running = true := rfl
@[simp] theorem startClock_count (s : State) : (startClock s).count = 0#16 := rfl
@[simp] theorem startClock_prevA (s : State) : (startClock s).prevA = s.prevA := rfl
@[simp] theorem startClock_prevB (s : State) : (startClock s).prevB = s.prevB := rfl
@[simp] theorem startClock_selector (s : State) : (startClock s).selector = s.selector := rfl
@[simp] theorem startClock_view (s : State) : (startClock s).view = s.view := rfl
@[simp] theorem startClock_range (s : State) : (startClock s).range = s.range := rfl
@[simp] theorem startClock_fault (s : State) : (startClock s).fault = s.fault := rfl
@[simp] theorem startClock_cycle (s : State) : (startClock s).cycle = s.cycle := rfl
@[simp] theorem startClock_epoch (s : State) : (startClock s).epoch = s.epoch := rfl
@[simp] theorem startClock_inputs (s : State) : (startClock s).inputs = s.inputs := rfl
@[simp] theorem startClock_out (s : State) : (startClock s).out = s.out := rfl

/-! ### `setCount` -/

@[simp] theorem setCount_cfg (n : Half) (s : State) : (setCount n s).cfg = s.cfg := rfl
@[simp] theorem setCount_buf (n : Half) (s : State) : (setCount n s).buf = s.buf := rfl
@[simp] theorem setCount_cursor (n : Half) (s : State) : (setCount n s).cursor = s.cursor := rfl
@[simp] theorem setCount_masked (n : Half) (s : State) : (setCount n s).masked = s.masked := rfl
@[simp] theorem setCount_pendV (n : Half) (s : State) : (setCount n s).pendV = s.pendV := rfl
@[simp] theorem setCount_pendD (n : Half) (s : State) : (setCount n s).pendD = s.pendD := rfl
@[simp] theorem setCount_period (n : Half) (s : State) : (setCount n s).period = s.period := rfl
@[simp] theorem setCount_running (n : Half) (s : State) : (setCount n s).running = s.running := rfl
@[simp] theorem setCount_count (n : Half) (s : State) : (setCount n s).count = n := rfl
@[simp] theorem setCount_prevA (n : Half) (s : State) : (setCount n s).prevA = s.prevA := rfl
@[simp] theorem setCount_prevB (n : Half) (s : State) : (setCount n s).prevB = s.prevB := rfl
@[simp] theorem setCount_selector (n : Half) (s : State) : (setCount n s).selector = s.selector := rfl
@[simp] theorem setCount_view (n : Half) (s : State) : (setCount n s).view = s.view := rfl
@[simp] theorem setCount_range (n : Half) (s : State) : (setCount n s).range = s.range := rfl
@[simp] theorem setCount_fault (n : Half) (s : State) : (setCount n s).fault = s.fault := rfl
@[simp] theorem setCount_cycle (n : Half) (s : State) : (setCount n s).cycle = s.cycle := rfl
@[simp] theorem setCount_epoch (n : Half) (s : State) : (setCount n s).epoch = s.epoch := rfl
@[simp] theorem setCount_inputs (n : Half) (s : State) : (setCount n s).inputs = s.inputs := rfl
@[simp] theorem setCount_out (n : Half) (s : State) : (setCount n s).out = s.out := rfl

/-! ### `samplePins` -/

@[simp] theorem samplePins_cfg (a b : Bool) (s : State) : (samplePins a b s).cfg = s.cfg := rfl
@[simp] theorem samplePins_buf (a b : Bool) (s : State) : (samplePins a b s).buf = s.buf := rfl
@[simp] theorem samplePins_cursor (a b : Bool) (s : State) : (samplePins a b s).cursor = s.cursor := rfl
@[simp] theorem samplePins_masked (a b : Bool) (s : State) : (samplePins a b s).masked = s.masked := rfl
@[simp] theorem samplePins_pendV (a b : Bool) (s : State) : (samplePins a b s).pendV = s.pendV := rfl
@[simp] theorem samplePins_pendD (a b : Bool) (s : State) : (samplePins a b s).pendD = s.pendD := rfl
@[simp] theorem samplePins_period (a b : Bool) (s : State) : (samplePins a b s).period = s.period := rfl
@[simp] theorem samplePins_running (a b : Bool) (s : State) : (samplePins a b s).running = s.running := rfl
@[simp] theorem samplePins_count (a b : Bool) (s : State) : (samplePins a b s).count = s.count := rfl
@[simp] theorem samplePins_prevA (a b : Bool) (s : State) : (samplePins a b s).prevA = a := rfl
@[simp] theorem samplePins_prevB (a b : Bool) (s : State) : (samplePins a b s).prevB = b := rfl
@[simp] theorem samplePins_selector (a b : Bool) (s : State) : (samplePins a b s).selector = s.selector := rfl
@[simp] theorem samplePins_view (a b : Bool) (s : State) : (samplePins a b s).view = s.view := rfl
@[simp] theorem samplePins_range (a b : Bool) (s : State) : (samplePins a b s).range = s.range := rfl
@[simp] theorem samplePins_fault (a b : Bool) (s : State) : (samplePins a b s).fault = s.fault := rfl
@[simp] theorem samplePins_cycle (a b : Bool) (s : State) : (samplePins a b s).cycle = s.cycle := rfl
@[simp] theorem samplePins_epoch (a b : Bool) (s : State) : (samplePins a b s).epoch = s.epoch := rfl
@[simp] theorem samplePins_inputs (a b : Bool) (s : State) : (samplePins a b s).inputs = s.inputs := rfl
@[simp] theorem samplePins_out (a b : Bool) (s : State) : (samplePins a b s).out = s.out := rfl

/-! ### `setSelector` -/

@[simp] theorem setSelector_cfg (n : Nat) (s : State) : (setSelector n s).cfg = s.cfg := rfl
@[simp] theorem setSelector_buf (n : Nat) (s : State) : (setSelector n s).buf = s.buf := rfl
@[simp] theorem setSelector_cursor (n : Nat) (s : State) : (setSelector n s).cursor = s.cursor := rfl
@[simp] theorem setSelector_masked (n : Nat) (s : State) : (setSelector n s).masked = s.masked := rfl
@[simp] theorem setSelector_pendV (n : Nat) (s : State) : (setSelector n s).pendV = s.pendV := rfl
@[simp] theorem setSelector_pendD (n : Nat) (s : State) : (setSelector n s).pendD = s.pendD := rfl
@[simp] theorem setSelector_period (n : Nat) (s : State) : (setSelector n s).period = s.period := rfl
@[simp] theorem setSelector_running (n : Nat) (s : State) : (setSelector n s).running = s.running := rfl
@[simp] theorem setSelector_count (n : Nat) (s : State) : (setSelector n s).count = s.count := rfl
@[simp] theorem setSelector_prevA (n : Nat) (s : State) : (setSelector n s).prevA = s.prevA := rfl
@[simp] theorem setSelector_prevB (n : Nat) (s : State) : (setSelector n s).prevB = s.prevB := rfl
@[simp] theorem setSelector_selector (n : Nat) (s : State) : (setSelector n s).selector = n := rfl
@[simp] theorem setSelector_view (n : Nat) (s : State) : (setSelector n s).view = s.view := rfl
@[simp] theorem setSelector_range (n : Nat) (s : State) : (setSelector n s).range = s.range := rfl
@[simp] theorem setSelector_fault (n : Nat) (s : State) : (setSelector n s).fault = s.fault := rfl
@[simp] theorem setSelector_cycle (n : Nat) (s : State) : (setSelector n s).cycle = s.cycle := rfl
@[simp] theorem setSelector_epoch (n : Nat) (s : State) : (setSelector n s).epoch = s.epoch := rfl
@[simp] theorem setSelector_inputs (n : Nat) (s : State) : (setSelector n s).inputs = s.inputs := rfl
@[simp] theorem setSelector_out (n : Nat) (s : State) : (setSelector n s).out = s.out := rfl

/-! ### `setView` -/

@[simp] theorem setView_cfg (v : View) (s : State) : (setView v s).cfg = s.cfg := rfl
@[simp] theorem setView_buf (v : View) (s : State) : (setView v s).buf = s.buf := rfl
@[simp] theorem setView_cursor (v : View) (s : State) : (setView v s).cursor = s.cursor := rfl
@[simp] theorem setView_masked (v : View) (s : State) : (setView v s).masked = s.masked := rfl
@[simp] theorem setView_pendV (v : View) (s : State) : (setView v s).pendV = s.pendV := rfl
@[simp] theorem setView_pendD (v : View) (s : State) : (setView v s).pendD = s.pendD := rfl
@[simp] theorem setView_period (v : View) (s : State) : (setView v s).period = s.period := rfl
@[simp] theorem setView_running (v : View) (s : State) : (setView v s).running = s.running := rfl
@[simp] theorem setView_count (v : View) (s : State) : (setView v s).count = s.count := rfl
@[simp] theorem setView_prevA (v : View) (s : State) : (setView v s).prevA = s.prevA := rfl
@[simp] theorem setView_prevB (v : View) (s : State) : (setView v s).prevB = s.prevB := rfl
@[simp] theorem setView_selector (v : View) (s : State) : (setView v s).selector = s.selector := rfl
@[simp] theorem setView_view (v : View) (s : State) : (setView v s).view = v := rfl
@[simp] theorem setView_range (v : View) (s : State) : (setView v s).range = s.range := rfl
@[simp] theorem setView_fault (v : View) (s : State) : (setView v s).fault = s.fault := rfl
@[simp] theorem setView_cycle (v : View) (s : State) : (setView v s).cycle = s.cycle := rfl
@[simp] theorem setView_epoch (v : View) (s : State) : (setView v s).epoch = s.epoch := rfl
@[simp] theorem setView_inputs (v : View) (s : State) : (setView v s).inputs = s.inputs := rfl
@[simp] theorem setView_out (v : View) (s : State) : (setView v s).out = s.out := rfl

/-! ### `setRange` -/

@[simp] theorem setRange_cfg (v : Word) (s : State) : (setRange v s).cfg = s.cfg := rfl
@[simp] theorem setRange_buf (v : Word) (s : State) : (setRange v s).buf = s.buf := rfl
@[simp] theorem setRange_cursor (v : Word) (s : State) : (setRange v s).cursor = s.cursor := rfl
@[simp] theorem setRange_masked (v : Word) (s : State) : (setRange v s).masked = s.masked := rfl
@[simp] theorem setRange_pendV (v : Word) (s : State) : (setRange v s).pendV = s.pendV := rfl
@[simp] theorem setRange_pendD (v : Word) (s : State) : (setRange v s).pendD = s.pendD := rfl
@[simp] theorem setRange_period (v : Word) (s : State) : (setRange v s).period = s.period := rfl
@[simp] theorem setRange_running (v : Word) (s : State) : (setRange v s).running = s.running := rfl
@[simp] theorem setRange_count (v : Word) (s : State) : (setRange v s).count = s.count := rfl
@[simp] theorem setRange_prevA (v : Word) (s : State) : (setRange v s).prevA = s.prevA := rfl
@[simp] theorem setRange_prevB (v : Word) (s : State) : (setRange v s).prevB = s.prevB := rfl
@[simp] theorem setRange_selector (v : Word) (s : State) : (setRange v s).selector = s.selector := rfl
@[simp] theorem setRange_view (v : Word) (s : State) : (setRange v s).view = s.view := rfl
@[simp] theorem setRange_range (v : Word) (s : State) : (setRange v s).range = v := rfl
@[simp] theorem setRange_fault (v : Word) (s : State) : (setRange v s).fault = s.fault := rfl
@[simp] theorem setRange_cycle (v : Word) (s : State) : (setRange v s).cycle = s.cycle := rfl
@[simp] theorem setRange_epoch (v : Word) (s : State) : (setRange v s).epoch = s.epoch := rfl
@[simp] theorem setRange_inputs (v : Word) (s : State) : (setRange v s).inputs = s.inputs := rfl
@[simp] theorem setRange_out (v : Word) (s : State) : (setRange v s).out = s.out := rfl

/-! ### `storeCell` -/

@[simp] theorem storeCell_cfg (a : Nat) (v : Byte) (s : State) : (storeCell a v s).cfg = s.cfg := rfl
@[simp] theorem storeCell_buf (a : Nat) (v : Byte) (s : State) : (storeCell a v s).buf = writeMemory s.buf a v := rfl
@[simp] theorem storeCell_cursor (a : Nat) (v : Byte) (s : State) : (storeCell a v s).cursor = s.cursor := rfl
@[simp] theorem storeCell_masked (a : Nat) (v : Byte) (s : State) : (storeCell a v s).masked = s.masked := rfl
@[simp] theorem storeCell_pendV (a : Nat) (v : Byte) (s : State) : (storeCell a v s).pendV = s.pendV := rfl
@[simp] theorem storeCell_pendD (a : Nat) (v : Byte) (s : State) : (storeCell a v s).pendD = s.pendD := rfl
@[simp] theorem storeCell_period (a : Nat) (v : Byte) (s : State) : (storeCell a v s).period = s.period := rfl
@[simp] theorem storeCell_running (a : Nat) (v : Byte) (s : State) : (storeCell a v s).running = s.running := rfl
@[simp] theorem storeCell_count (a : Nat) (v : Byte) (s : State) : (storeCell a v s).count = s.count := rfl
@[simp] theorem storeCell_prevA (a : Nat) (v : Byte) (s : State) : (storeCell a v s).prevA = s.prevA := rfl
@[simp] theorem storeCell_prevB (a : Nat) (v : Byte) (s : State) : (storeCell a v s).prevB = s.prevB := rfl
@[simp] theorem storeCell_selector (a : Nat) (v : Byte) (s : State) : (storeCell a v s).selector = s.selector := rfl
@[simp] theorem storeCell_view (a : Nat) (v : Byte) (s : State) : (storeCell a v s).view = s.view := rfl
@[simp] theorem storeCell_range (a : Nat) (v : Byte) (s : State) : (storeCell a v s).range = s.range := rfl
@[simp] theorem storeCell_fault (a : Nat) (v : Byte) (s : State) : (storeCell a v s).fault = s.fault := rfl
@[simp] theorem storeCell_cycle (a : Nat) (v : Byte) (s : State) : (storeCell a v s).cycle = s.cycle := rfl
@[simp] theorem storeCell_epoch (a : Nat) (v : Byte) (s : State) : (storeCell a v s).epoch = s.epoch := rfl
@[simp] theorem storeCell_inputs (a : Nat) (v : Byte) (s : State) : (storeCell a v s).inputs = s.inputs := rfl
@[simp] theorem storeCell_out (a : Nat) (v : Byte) (s : State) : (storeCell a v s).out = s.out := rfl

/-! ### `respond` -/

@[simp] theorem respond_cfg (v : Long) (s : State) : (respond v s).cfg = s.cfg := rfl
@[simp] theorem respond_buf (v : Long) (s : State) : (respond v s).buf = s.buf := rfl
@[simp] theorem respond_cursor (v : Long) (s : State) : (respond v s).cursor = s.cursor := rfl
@[simp] theorem respond_masked (v : Long) (s : State) : (respond v s).masked = s.masked := rfl
@[simp] theorem respond_pendV (v : Long) (s : State) : (respond v s).pendV = s.pendV := rfl
@[simp] theorem respond_pendD (v : Long) (s : State) : (respond v s).pendD = s.pendD := rfl
@[simp] theorem respond_period (v : Long) (s : State) : (respond v s).period = s.period := rfl
@[simp] theorem respond_running (v : Long) (s : State) : (respond v s).running = s.running := rfl
@[simp] theorem respond_count (v : Long) (s : State) : (respond v s).count = s.count := rfl
@[simp] theorem respond_prevA (v : Long) (s : State) : (respond v s).prevA = s.prevA := rfl
@[simp] theorem respond_prevB (v : Long) (s : State) : (respond v s).prevB = s.prevB := rfl
@[simp] theorem respond_selector (v : Long) (s : State) : (respond v s).selector = s.selector := rfl
@[simp] theorem respond_view (v : Long) (s : State) : (respond v s).view = s.view := rfl
@[simp] theorem respond_range (v : Long) (s : State) : (respond v s).range = s.range := rfl
@[simp] theorem respond_fault (v : Long) (s : State) : (respond v s).fault = s.fault := rfl
@[simp] theorem respond_cycle (v : Long) (s : State) : (respond v s).cycle = s.cycle := rfl
@[simp] theorem respond_epoch (v : Long) (s : State) : (respond v s).epoch = s.epoch := rfl
@[simp] theorem respond_inputs (v : Long) (s : State) : (respond v s).inputs = s.inputs := rfl
@[simp] theorem respond_resp (v : Long) (s : State) : (respond v s).out.resp = v := rfl
@[simp] theorem respond_trig (v : Long) (s : State) : (respond v s).out.trig = s.out.trig := rfl
@[simp] theorem respond_fullOut (v : Long) (s : State) : (respond v s).out.fullOut = s.out.fullOut := rfl
@[simp] theorem respond_viewOut (v : Long) (s : State) : (respond v s).out.viewOut = s.out.viewOut := rfl
@[simp] theorem respond_rangeOut (v : Long) (s : State) : (respond v s).out.rangeOut = s.out.rangeOut := rfl

/-! ### `setTrig` -/

@[simp] theorem setTrig_cfg (b : Bool) (s : State) : (setTrig b s).cfg = s.cfg := rfl
@[simp] theorem setTrig_buf (b : Bool) (s : State) : (setTrig b s).buf = s.buf := rfl
@[simp] theorem setTrig_cursor (b : Bool) (s : State) : (setTrig b s).cursor = s.cursor := rfl
@[simp] theorem setTrig_masked (b : Bool) (s : State) : (setTrig b s).masked = s.masked := rfl
@[simp] theorem setTrig_pendV (b : Bool) (s : State) : (setTrig b s).pendV = s.pendV := rfl
@[simp] theorem setTrig_pendD (b : Bool) (s : State) : (setTrig b s).pendD = s.pendD := rfl
@[simp] theorem setTrig_period (b : Bool) (s : State) : (setTrig b s).period = s.period := rfl
@[simp] theorem setTrig_running (b : Bool) (s : State) : (setTrig b s).running = s.running := rfl
@[simp] theorem setTrig_count (b : Bool) (s : State) : (setTrig b s).count = s.count := rfl
@[simp] theorem setTrig_prevA (b : Bool) (s : State) : (setTrig b s).prevA = s.prevA := rfl
@[simp] theorem setTrig_prevB (b : Bool) (s : State) : (setTrig b s).prevB = s.prevB := rfl
@[simp] theorem setTrig_selector (b : Bool) (s : State) : (setTrig b s).selector = s.selector := rfl
@[simp] theorem setTrig_view (b : Bool) (s : State) : (setTrig b s).view = s.view := rfl
@[simp] theorem setTrig_range (b : Bool) (s : State) : (setTrig b s).range = s.range := rfl
@[simp] theorem setTrig_fault (b : Bool) (s : State) : (setTrig b s).fault = s.fault := rfl
@[simp] theorem setTrig_cycle (b : Bool) (s : State) : (setTrig b s).cycle = s.cycle := rfl
@[simp] theorem setTrig_epoch (b : Bool) (s : State) : (setTrig b s).epoch = s.epoch := rfl
@[simp] theorem setTrig_inputs (b : Bool) (s : State) : (setTrig b s).inputs = s.inputs := rfl
@[simp] theorem setTrig_resp (b : Bool) (s : State) : (setTrig b s).out.resp = s.out.resp := rfl
@[simp] theorem setTrig_trig (b : Bool) (s : State) : (setTrig b s).out.trig = b := rfl
@[simp] theorem setTrig_fullOut (b : Bool) (s : State) : (setTrig b s).out.fullOut = s.out.fullOut := rfl
@[simp] theorem setTrig_viewOut (b : Bool) (s : State) : (setTrig b s).out.viewOut = s.out.viewOut := rfl
@[simp] theorem setTrig_rangeOut (b : Bool) (s : State) : (setTrig b s).out.rangeOut = s.out.rangeOut := rfl

/-! ### `driveOutputs` -/

@[simp] theorem driveOutputs_cfg (f v : Bool) (r : Word) (s : State) : (driveOutputs f v r s).cfg = s.cfg := rfl
@[simp] theorem driveOutputs_buf (f v : Bool) (r : Word) (s : State) : (driveOutputs f v r s).buf = s.buf := rfl
@[simp] theorem driveOutputs_cursor (f v : Bool) (r : Word) (s : State) : (driveOutputs f v r s).cursor = s.cursor := rfl
@[simp] theorem driveOutputs_masked (f v : Bool) (r : Word) (s : State) : (driveOutputs f v r s).masked = s.masked := rfl
@[simp] theorem driveOutputs_pendV (f v : Bool) (r : Word) (s : State) : (driveOutputs f v r s).pendV = s.pendV := rfl
@[simp] theorem driveOutputs_pendD (f v : Bool) (r : Word) (s : State) : (driveOutputs f v r s).pendD = s.pendD := rfl
@[simp] theorem driveOutputs_period (f v : Bool) (r : Word) (s : State) : (driveOutputs f v r s).period = s.period := rfl
@[simp] theorem driveOutputs_running (f v : Bool) (r : Word) (s : State) : (driveOutputs f v r s).running = s.running := rfl
@[simp] theorem driveOutputs_count (f v : Bool) (r : Word) (s : State) : (driveOutputs f v r s).count = s.count := rfl
@[simp] theorem driveOutputs_prevA (f v : Bool) (r : Word) (s : State) : (driveOutputs f v r s).prevA = s.prevA := rfl
@[simp] theorem driveOutputs_prevB (f v : Bool) (r : Word) (s : State) : (driveOutputs f v r s).prevB = s.prevB := rfl
@[simp] theorem driveOutputs_selector (f v : Bool) (r : Word) (s : State) : (driveOutputs f v r s).selector = s.selector := rfl
@[simp] theorem driveOutputs_view (f v : Bool) (r : Word) (s : State) : (driveOutputs f v r s).view = s.view := rfl
@[simp] theorem driveOutputs_range (f v : Bool) (r : Word) (s : State) : (driveOutputs f v r s).range = s.range := rfl
@[simp] theorem driveOutputs_fault (f v : Bool) (r : Word) (s : State) : (driveOutputs f v r s).fault = s.fault := rfl
@[simp] theorem driveOutputs_cycle (f v : Bool) (r : Word) (s : State) : (driveOutputs f v r s).cycle = s.cycle := rfl
@[simp] theorem driveOutputs_epoch (f v : Bool) (r : Word) (s : State) : (driveOutputs f v r s).epoch = s.epoch := rfl
@[simp] theorem driveOutputs_inputs (f v : Bool) (r : Word) (s : State) : (driveOutputs f v r s).inputs = s.inputs := rfl
@[simp] theorem driveOutputs_resp (f v : Bool) (r : Word) (s : State) : (driveOutputs f v r s).out.resp = s.out.resp := rfl
@[simp] theorem driveOutputs_trig (f v : Bool) (r : Word) (s : State) : (driveOutputs f v r s).out.trig = s.out.trig := rfl
@[simp] theorem driveOutputs_fullOut (f v : Bool) (r : Word) (s : State) : (driveOutputs f v r s).out.fullOut = f := rfl
@[simp] theorem driveOutputs_viewOut (f v : Bool) (r : Word) (s : State) : (driveOutputs f v r s).out.viewOut = v := rfl
@[simp] theorem driveOutputs_rangeOut (f v : Bool) (r : Word) (s : State) : (driveOutputs f v r s).out.rangeOut = r := rfl

/-! ### `nextCycle` -/

@[simp] theorem nextCycle_cfg (s : State) : (nextCycle s).cfg = s.cfg := rfl
@[simp] theorem nextCycle_buf (s : State) : (nextCycle s).buf = s.buf := rfl
@[simp] theorem nextCycle_cursor (s : State) : (nextCycle s).cursor = s.cursor := rfl
@[simp] theorem nextCycle_masked (s : State) : (nextCycle s).masked = s.masked := rfl
@[simp] theorem nextCycle_pendV (s : State) : (nextCycle s).pendV = s.pendV := rfl
@[simp] theorem nextCycle_pendD (s : State) : (nextCycle s).pendD = s.pendD := rfl
@[simp] theorem nextCycle_period (s : State) : (nextCycle s).period = s.period := rfl
@[simp] theorem nextCycle_running (s : State) : (nextCycle s).running = s.running := rfl
@[simp] theorem nextCycle_count (s : State) : (nextCycle s).count = s.count := rfl
@[simp] theorem nextCycle_prevA (s : State) : (nextCycle s).prevA = s.prevA := rfl
@[simp] theorem nextCycle_prevB (s : State) : (nextCycle s).prevB = s.prevB := rfl
@[simp] theorem nextCycle_selector (s : State) : (nextCycle s).selector = s.selector := rfl
@[simp] theorem nextCycle_view (s : State) : (nextCycle s).view = s.view := rfl
@[simp] theorem nextCycle_range (s : State) : (nextCycle s).range = s.range := rfl
@[simp] theorem nextCycle_fault (s : State) : (nextCycle s).fault = s.fault := rfl
@[simp] theorem nextCycle_cycle (s : State) : (nextCycle s).cycle = s.cycle + 1 := rfl
@[simp] theorem nextCycle_epoch (s : State) : (nextCycle s).epoch = s.epoch := rfl
@[simp] theorem nextCycle_inputs (s : State) : (nextCycle s).inputs = s.inputs := rfl
@[simp] theorem nextCycle_out (s : State) : (nextCycle s).out = s.out := rfl

/-! ### `popInput` -/

@[simp] theorem popInput_cfg (s : State) : (popInput s).cfg = s.cfg := rfl
@[simp] theorem popInput_buf (s : State) : (popInput s).buf = s.buf := rfl
@[simp] theorem popInput_cursor (s : State) : (popInput s).cursor = s.cursor := rfl
@[simp] theorem popInput_masked (s : State) : (popInput s).masked = s.masked := rfl
@[simp] theorem popInput_pendV (s : State) : (popInput s).pendV = s.pendV := rfl
@[simp] theorem popInput_pendD (s : State) : (popInput s).pendD = s.pendD := rfl
@[simp] theorem popInput_period (s : State) : (popInput s).period = s.period := rfl
@[simp] theorem popInput_running (s : State) : (popInput s).running = s.running := rfl
@[simp] theorem popInput_count (s : State) : (popInput s).count = s.count := rfl
@[simp] theorem popInput_prevA (s : State) : (popInput s).prevA = s.prevA := rfl
@[simp] theorem popInput_prevB (s : State) : (popInput s).prevB = s.prevB := rfl
@[simp] theorem popInput_selector (s : State) : (popInput s).selector = s.selector := rfl
@[simp] theorem popInput_view (s : State) : (popInput s).view = s.view := rfl
@[simp] theorem popInput_range (s : State) : (popInput s).range = s.range := rfl
@[simp] theorem popInput_fault (s : State) : (popInput s).fault = s.fault := rfl
@[simp] theorem popInput_cycle (s : State) : (popInput s).cycle = s.cycle := rfl
@[simp] theorem popInput_epoch (s : State) : (popInput s).epoch = s.epoch := rfl
@[simp] theorem popInput_inputs (s : State) : (popInput s).inputs = s.inputs.tail := rfl
@[simp] theorem popInput_out (s : State) : (popInput s).out = s.out := rfl

/-! ### `recordFault` -/

@[simp] theorem recordFault_cfg (r : Fault) (s : State) : (recordFault r s).cfg = s.cfg := rfl
@[simp] theorem recordFault_buf (r : Fault) (s : State) : (recordFault r s).buf = s.buf := rfl
@[simp] theorem recordFault_cursor (r : Fault) (s : State) : (recordFault r s).cursor = s.cursor := rfl
@[simp] theorem recordFault_masked (r : Fault) (s : State) : (recordFault r s).masked = s.masked := rfl
@[simp] theorem recordFault_pendV (r : Fault) (s : State) : (recordFault r s).pendV = s.pendV := rfl
@[simp] theorem recordFault_pendD (r : Fault) (s : State) : (recordFault r s).pendD = s.pendD := rfl
@[simp] theorem recordFault_period (r : Fault) (s : State) : (recordFault r s).period = s.period := rfl
@[simp] theorem recordFault_running (r : Fault) (s : State) : (recordFault r s).running = s.running := rfl
@[simp] theorem recordFault_count (r : Fault) (s : State) : (recordFault r s).count = s.count := rfl
@[simp] theorem recordFault_prevA (r : Fault) (s : State) : (recordFault r s).prevA = s.prevA := rfl
@[simp] theorem recordFault_prevB (r : Fault) (s : State) : (recordFault r s).prevB = s.prevB := rfl
@[simp] theorem recordFault_selector (r : Fault) (s : State) : (recordFault r s).selector = s.selector := rfl
@[simp] theorem recordFault_view (r : Fault) (s : State) : (recordFault r s).view = s.view := rfl
@[simp] theorem recordFault_range (r : Fault) (s : State) : (recordFault r s).range = s.range := rfl
@[simp] theorem recordFault_fault (r : Fault) (s : State) : (recordFault r s).fault = some r := rfl
@[simp] theorem recordFault_cycle (r : Fault) (s : State) : (recordFault r s).cycle = s.cycle := rfl
@[simp] theorem recordFault_epoch (r : Fault) (s : State) : (recordFault r s).epoch = s.epoch := rfl
@[simp] theorem recordFault_inputs (r : Fault) (s : State) : (recordFault r s).inputs = s.inputs := rfl
@[simp] theorem recordFault_out (r : Fault) (s : State) : (recordFault r s).out = s.out := rfl

/-! ### `State.powerOn` -/

@[simp] theorem powerOn_cfg (c : Config) (e : Nat) (ins : List CycleInput) : (State.powerOn c e ins).cfg = c := rfl
@[simp] theorem powerOn_buf (c : Config) (e : Nat) (ins : List CycleInput) : (State.powerOn c e ins).buf = [] := rfl
@[simp] theorem powerOn_cursor (c : Config) (e : Nat) (ins : List CycleInput) : (State.powerOn c e ins).cursor = 0 := rfl
@[simp] theorem powerOn_masked (c : Config) (e : Nat) (ins : List CycleInput) : (State.powerOn c e ins).masked = false := rfl
@[simp] theorem powerOn_pendV (c : Config) (e : Nat) (ins : List CycleInput) : (State.powerOn c e ins).pendV = false := rfl
@[simp] theorem powerOn_pendD (c : Config) (e : Nat) (ins : List CycleInput) : (State.powerOn c e ins).pendD = 0#8 := rfl
@[simp] theorem powerOn_period (c : Config) (e : Nat) (ins : List CycleInput) : (State.powerOn c e ins).period = 0#16 := rfl
@[simp] theorem powerOn_running (c : Config) (e : Nat) (ins : List CycleInput) : (State.powerOn c e ins).running = false := rfl
@[simp] theorem powerOn_count (c : Config) (e : Nat) (ins : List CycleInput) : (State.powerOn c e ins).count = 0#16 := rfl
@[simp] theorem powerOn_prevA (c : Config) (e : Nat) (ins : List CycleInput) : (State.powerOn c e ins).prevA = true := rfl
@[simp] theorem powerOn_prevB (c : Config) (e : Nat) (ins : List CycleInput) : (State.powerOn c e ins).prevB = true := rfl
@[simp] theorem powerOn_selector (c : Config) (e : Nat) (ins : List CycleInput) : (State.powerOn c e ins).selector = 0 := rfl
@[simp] theorem powerOn_view (c : Config) (e : Nat) (ins : List CycleInput) : (State.powerOn c e ins).view = .scope := rfl
@[simp] theorem powerOn_range (c : Config) (e : Nat) (ins : List CycleInput) : (State.powerOn c e ins).range = c.rangeReset := rfl
@[simp] theorem powerOn_fault (c : Config) (e : Nat) (ins : List CycleInput) : (State.powerOn c e ins).fault = none := rfl
@[simp] theorem powerOn_cycle (c : Config) (e : Nat) (ins : List CycleInput) : (State.powerOn c e ins).cycle = 0 := rfl
@[simp] theorem powerOn_epoch (c : Config) (e : Nat) (ins : List CycleInput) : (State.powerOn c e ins).epoch = e := rfl
@[simp] theorem powerOn_inputs (c : Config) (e : Nat) (ins : List CycleInput) : (State.powerOn c e ins).inputs = ins := rfl
@[simp] theorem powerOn_resp (c : Config) (e : Nat) (ins : List CycleInput) : (State.powerOn c e ins).out.resp = 0#64 := rfl
@[simp] theorem powerOn_trig (c : Config) (e : Nat) (ins : List CycleInput) : (State.powerOn c e ins).out.trig = false := rfl
@[simp] theorem powerOn_fullOut (c : Config) (e : Nat) (ins : List CycleInput) : (State.powerOn c e ins).out.fullOut = false := rfl
@[simp] theorem powerOn_viewOut (c : Config) (e : Nat) (ins : List CycleInput) : (State.powerOn c e ins).out.viewOut = false := rfl
@[simp] theorem powerOn_rangeOut (c : Config) (e : Nat) (ins : List CycleInput) : (State.powerOn c e ins).out.rangeOut = c.rangeReset := rfl

end Sys2Proof.Machine
end

