-- ==== Sys2Proof/Laws/Memory.lean ====
section
/-! SUPPORT. The capture store's two operations: reading after writing, and that a write keeps the
canonical form. -/

namespace Sys2Proof.Machine

@[simp] theorem readMemory_write_same (m : Memory) (a : Nat) (v : Byte) :
    readMemory (writeMemory m a v) a = some v := by
  induction m with
  | nil => simp [writeMemory, readMemory]
  | cons c m ih =>
    obtain ⟨k, b⟩ := c
    by_cases h : a = k
    · simp [writeMemory, readMemory, h]
    · by_cases h' : a < k
      · simp [writeMemory, readMemory, h, h']
      · simp [writeMemory, readMemory, h, h', ih]

theorem readMemory_write_other (m : Memory) {a b : Nat} (v : Byte) (hne : b ≠ a) :
    readMemory (writeMemory m a v) b = readMemory m b := by
  induction m with
  | nil => simp [writeMemory, readMemory, hne]
  | cons c m ih =>
    obtain ⟨k, x⟩ := c
    by_cases h : a = k
    · subst h
      simp [writeMemory, readMemory, hne]
    · by_cases h' : a < k
      · simp only [writeMemory, readMemory, if_neg h, if_pos h', if_neg hne]
        split_ifs <;> first | rfl | omega
      · simp [writeMemory, readMemory, h, h', ih]

theorem risingFrom_le {m : Memory} {lo lo' : Nat} (hle : lo' ≤ lo) (h : risingFrom lo m = true) :
    risingFrom lo' m = true := by
  cases m with
  | nil => rfl
  | cons c m =>
    simp only [risingFrom, Bool.and_eq_true, decide_eq_true_eq] at h ⊢
    exact ⟨hle.trans h.1, h.2⟩

theorem risingFrom_write {m : Memory} {lo a : Nat} (v : Byte) (ha : lo ≤ a)
    (h : risingFrom lo m = true) : risingFrom lo (writeMemory m a v) = true := by
  induction m generalizing lo with
  | nil => simp [writeMemory, risingFrom, ha]
  | cons c m ih =>
    obtain ⟨k, b⟩ := c
    simp only [risingFrom, Bool.and_eq_true, decide_eq_true_eq] at h
    by_cases hk : a = k
    · subst hk
      simp [writeMemory, risingFrom, ha, h.2]
    · by_cases hlt : a < k
      · simp only [writeMemory, if_neg hk, if_pos hlt, risingFrom, Bool.and_eq_true,
          decide_eq_true_eq]
        exact ⟨ha, hlt, h.2⟩
      · simp only [writeMemory, if_neg hk, if_neg hlt, risingFrom, Bool.and_eq_true,
          decide_eq_true_eq]
        exact ⟨h.1, ih (by omega) h.2⟩

/-- A write keeps the canonical form. -/
theorem Memory.wf_write {m : Memory} (a : Nat) (v : Byte) (h : Memory.wf m = true) :
    Memory.wf (writeMemory m a v) = true :=
  risingFrom_write v (Nat.zero_le a) h

/-- The store of every power-on is canonical. -/
theorem Memory.wf_powerOn (c : Config) (e : Nat) (ins : List CycleInput) :
    Memory.wf (State.powerOn c e ins).buf = true := rfl

theorem Memory.wf_reset : Memory.wf State.reset.buf = true := rfl

/-- A cell's value depends on the store and the power-on's number alone. -/
theorem readCell_congr {s t : State} (hb : t.buf = s.buf) (he : t.epoch = s.epoch) (a : Nat) :
    readCell t a = readCell s a := by
  simp only [readCell, hb, he]

@[simp] theorem readCell_storeCell_same (a : Nat) (v : Byte) (s : State) :
    readCell (storeCell a v s) a = v := by
  simp [readCell]

theorem readCell_storeCell_other {a b : Nat} (v : Byte) (s : State) (h : b ≠ a) :
    readCell (storeCell a v s) b = readCell s b := by
  simp only [readCell, storeCell_buf, storeCell_epoch, readMemory_write_other _ v h]

end Sys2Proof.Machine
end

