-- ==== Sys2Proof/Laws/Ops.lean ====
section
/-! SUPPORT. What each shared operation can do: phases in sequence, one-hot patterns, the append, the
latch, the counter step and the range update. -/

namespace Sys2Proof.Machine

/-! ## Phases in sequence -/

@[simp] theorem andThen_next (s : State) (f : State → Result) : andThen (.next s) f = f s := rfl

@[simp] theorem andThen_fault (r : Fault) (f : State → Result) :
    andThen (.fault r) f = .fault r := rfl

@[simp] theorem andThen_refused (r : Refusal) (f : State → Result) :
    andThen (.refused r) f = .refused r := rfl

theorem andThen_eq_next {o : Result} {f : State → Result} {t : State} :
    andThen o f = .next t ↔ ∃ s, o = .next s ∧ f s = .next t := by
  cases o <;> simp [andThen]

theorem andThen_ne_next {o : Result} (f : State → Result) (h : ∀ s, o ≠ .next s) :
    andThen o f = o := by
  cases o with
  | next s => exact absurd rfl (h s)
  | fault r => rfl
  | refused r => rfl

/-! ## One-hot patterns -/

theorem isOnehot_iff {n : Nat} {v : Word} :
    isOnehot n v = true ↔ ∃ k, k < n ∧ v = onehot k := by
  simp [isOnehot]

theorem onehot_getLsbD {k b : Nat} (hb : b < 32) :
    (onehot k).getLsbD b = true ↔ b = k := by
  simp only [onehot, BitVec.getLsbD_shiftLeft, hb, decide_true, Bool.true_and, Bool.and_eq_true,
    Bool.not_eq_true', decide_eq_false_iff_not, BitVec.getLsbD_one]
  simp
  omega

theorem isOnehot_onehot {n k : Nat} (h : k < n) : isOnehot n (onehot k) = true :=
  isOnehot_iff.mpr ⟨k, h, rfl⟩

/-- R9's one-hot condition, bit by bit. -/
theorem isOnehot_iff_bits {n : Nat} {v : Word} :
    isOnehot n v = true ↔ ∃ k, k < n ∧ ∀ b, b < 32 → (v.getLsbD b = true ↔ b = k) := by
  rw [isOnehot_iff]
  constructor
  · rintro ⟨k, hk, rfl⟩
    exact ⟨k, hk, fun b hb => onehot_getLsbD hb⟩
  · rintro ⟨k, hk, h⟩
    refine ⟨k, hk, BitVec.eq_of_getLsbD_eq fun b hb => ?_⟩
    rw [Bool.eq_iff_iff, h b hb, onehot_getLsbD hb]

/-! ## The append -/

theorem full_iff {s : State} : full s = true ↔ s.cfg.width < s.cursor := by simp [full]

theorem not_full_iff {s : State} : full s = false ↔ s.cursor ≤ s.cfg.width := by simp [full]

theorem appendSample_full {s : State} (v : Byte) (h : full s = true) : appendSample v s = s := by
  simp [appendSample, h]

theorem appendSample_accepted {s : State} (v : Byte) (h : full s = false) :
    appendSample v s = setCursor (s.cursor + 1) (storeCell s.cursor v s) := by
  simp [appendSample, h]

/-- What an append can do: nothing when full, else one cell and the cursor. -/
theorem appendSample_cases (v : Byte) (s : State) :
    (full s = true ∧ appendSample v s = s) ∨
    (full s = false ∧ appendSample v s = setCursor (s.cursor + 1) (storeCell s.cursor v s)) := by
  cases h : full s
  · exact .inr ⟨rfl, appendSample_accepted v h⟩
  · exact .inl ⟨rfl, appendSample_full v h⟩

@[simp] theorem appendSample_cfg (v : Byte) (s : State) : (appendSample v s).cfg = s.cfg := by
  obtain ⟨-, h⟩ | ⟨-, h⟩ := appendSample_cases v s <;> simp [h]
@[simp] theorem appendSample_masked (v : Byte) (s : State) : (appendSample v s).masked = s.masked := by
  obtain ⟨-, h⟩ | ⟨-, h⟩ := appendSample_cases v s <;> simp [h]
@[simp] theorem appendSample_pendV (v : Byte) (s : State) : (appendSample v s).pendV = s.pendV := by
  obtain ⟨-, h⟩ | ⟨-, h⟩ := appendSample_cases v s <;> simp [h]
@[simp] theorem appendSample_pendD (v : Byte) (s : State) : (appendSample v s).pendD = s.pendD := by
  obtain ⟨-, h⟩ | ⟨-, h⟩ := appendSample_cases v s <;> simp [h]
@[simp] theorem appendSample_period (v : Byte) (s : State) : (appendSample v s).period = s.period := by
  obtain ⟨-, h⟩ | ⟨-, h⟩ := appendSample_cases v s <;> simp [h]
@[simp] theorem appendSample_running (v : Byte) (s : State) : (appendSample v s).running = s.running := by
  obtain ⟨-, h⟩ | ⟨-, h⟩ := appendSample_cases v s <;> simp [h]
@[simp] theorem appendSample_count (v : Byte) (s : State) : (appendSample v s).count = s.count := by
  obtain ⟨-, h⟩ | ⟨-, h⟩ := appendSample_cases v s <;> simp [h]
@[simp] theorem appendSample_prevA (v : Byte) (s : State) : (appendSample v s).prevA = s.prevA := by
  obtain ⟨-, h⟩ | ⟨-, h⟩ := appendSample_cases v s <;> simp [h]
@[simp] theorem appendSample_prevB (v : Byte) (s : State) : (appendSample v s).prevB = s.prevB := by
  obtain ⟨-, h⟩ | ⟨-, h⟩ := appendSample_cases v s <;> simp [h]
@[simp] theorem appendSample_selector (v : Byte) (s : State) : (appendSample v s).selector = s.selector := by
  obtain ⟨-, h⟩ | ⟨-, h⟩ := appendSample_cases v s <;> simp [h]
@[simp] theorem appendSample_view (v : Byte) (s : State) : (appendSample v s).view = s.view := by
  obtain ⟨-, h⟩ | ⟨-, h⟩ := appendSample_cases v s <;> simp [h]
@[simp] theorem appendSample_range (v : Byte) (s : State) : (appendSample v s).range = s.range := by
  obtain ⟨-, h⟩ | ⟨-, h⟩ := appendSample_cases v s <;> simp [h]
@[simp] theorem appendSample_fault (v : Byte) (s : State) : (appendSample v s).fault = s.fault := by
  obtain ⟨-, h⟩ | ⟨-, h⟩ := appendSample_cases v s <;> simp [h]
@[simp] theorem appendSample_cycle (v : Byte) (s : State) : (appendSample v s).cycle = s.cycle := by
  obtain ⟨-, h⟩ | ⟨-, h⟩ := appendSample_cases v s <;> simp [h]
@[simp] theorem appendSample_epoch (v : Byte) (s : State) : (appendSample v s).epoch = s.epoch := by
  obtain ⟨-, h⟩ | ⟨-, h⟩ := appendSample_cases v s <;> simp [h]
@[simp] theorem appendSample_inputs (v : Byte) (s : State) : (appendSample v s).inputs = s.inputs := by
  obtain ⟨-, h⟩ | ⟨-, h⟩ := appendSample_cases v s <;> simp [h]
@[simp] theorem appendSample_out (v : Byte) (s : State) : (appendSample v s).out = s.out := by
  obtain ⟨-, h⟩ | ⟨-, h⟩ := appendSample_cases v s <;> simp [h]

/-! ## The clock and the range -/

/-- The three things the counter step can do (R122). -/
theorem clockgen_cases (b : Bool) (s : State) :
    (b = false ∧ clockgen b s = setTrig false s) ∨
    (b = true ∧ s.period.toNat ≤ s.count.toNat + 1 ∧ clockgen b s = setTrig true (setCount 0#16 s)) ∨
    (b = true ∧ s.count.toNat + 1 < s.period.toNat ∧
      clockgen b s = setTrig false (setCount (s.count + 1#16) s)) := by
  cases b
  · simp [clockgen]
  · by_cases h : s.period.toNat ≤ s.count.toNat + 1
    · simp [clockgen, periodReached, h]
    · simp [clockgen, periodReached, h]
      omega

/-- The two things the range update can do (R200). -/
theorem rangeUpdate_cases (s : State) :
    (1 ≤ s.selector ∧ s.selector ≤ s.cfg.nItems ∧
      rangeUpdate s = setRange (onehot (s.selector - 1)) s) ∨
    (¬ (1 ≤ s.selector ∧ s.selector ≤ s.cfg.nItems) ∧ rangeUpdate s = s) := by
  by_cases h : 1 ≤ s.selector ∧ s.selector ≤ s.cfg.nItems
  · exact .inl ⟨h.1, h.2, by simp [rangeUpdate, h]⟩
  · exact .inr ⟨h, by simp only [rangeUpdate, if_neg h]⟩

@[simp] theorem clockgen_cfg (b : Bool) (s : State) : (clockgen b s).cfg = s.cfg := by
  obtain ⟨-, h⟩ | ⟨-, -, h⟩ | ⟨-, -, h⟩ := clockgen_cases b s <;> simp [h]
@[simp] theorem clockgen_buf (b : Bool) (s : State) : (clockgen b s).buf = s.buf := by
  obtain ⟨-, h⟩ | ⟨-, -, h⟩ | ⟨-, -, h⟩ := clockgen_cases b s <;> simp [h]
@[simp] theorem clockgen_cursor (b : Bool) (s : State) : (clockgen b s).cursor = s.cursor := by
  obtain ⟨-, h⟩ | ⟨-, -, h⟩ | ⟨-, -, h⟩ := clockgen_cases b s <;> simp [h]
@[simp] theorem clockgen_masked (b : Bool) (s : State) : (clockgen b s).masked = s.masked := by
  obtain ⟨-, h⟩ | ⟨-, -, h⟩ | ⟨-, -, h⟩ := clockgen_cases b s <;> simp [h]
@[simp] theorem clockgen_pendV (b : Bool) (s : State) : (clockgen b s).pendV = s.pendV := by
  obtain ⟨-, h⟩ | ⟨-, -, h⟩ | ⟨-, -, h⟩ := clockgen_cases b s <;> simp [h]
@[simp] theorem clockgen_pendD (b : Bool) (s : State) : (clockgen b s).pendD = s.pendD := by
  obtain ⟨-, h⟩ | ⟨-, -, h⟩ | ⟨-, -, h⟩ := clockgen_cases b s <;> simp [h]
@[simp] theorem clockgen_period (b : Bool) (s : State) : (clockgen b s).period = s.period := by
  obtain ⟨-, h⟩ | ⟨-, -, h⟩ | ⟨-, -, h⟩ := clockgen_cases b s <;> simp [h]
@[simp] theorem clockgen_running (b : Bool) (s : State) : (clockgen b s).running = s.running := by
  obtain ⟨-, h⟩ | ⟨-, -, h⟩ | ⟨-, -, h⟩ := clockgen_cases b s <;> simp [h]
@[simp] theorem clockgen_prevA (b : Bool) (s : State) : (clockgen b s).prevA = s.prevA := by
  obtain ⟨-, h⟩ | ⟨-, -, h⟩ | ⟨-, -, h⟩ := clockgen_cases b s <;> simp [h]
@[simp] theorem clockgen_prevB (b : Bool) (s : State) : (clockgen b s).prevB = s.prevB := by
  obtain ⟨-, h⟩ | ⟨-, -, h⟩ | ⟨-, -, h⟩ := clockgen_cases b s <;> simp [h]
@[simp] theorem clockgen_selector (b : Bool) (s : State) : (clockgen b s).selector = s.selector := by
  obtain ⟨-, h⟩ | ⟨-, -, h⟩ | ⟨-, -, h⟩ := clockgen_cases b s <;> simp [h]
@[simp] theorem clockgen_view (b : Bool) (s : State) : (clockgen b s).view = s.view := by
  obtain ⟨-, h⟩ | ⟨-, -, h⟩ | ⟨-, -, h⟩ := clockgen_cases b s <;> simp [h]
@[simp] theorem clockgen_range (b : Bool) (s : State) : (clockgen b s).range = s.range := by
  obtain ⟨-, h⟩ | ⟨-, -, h⟩ | ⟨-, -, h⟩ := clockgen_cases b s <;> simp [h]
@[simp] theorem clockgen_fault (b : Bool) (s : State) : (clockgen b s).fault = s.fault := by
  obtain ⟨-, h⟩ | ⟨-, -, h⟩ | ⟨-, -, h⟩ := clockgen_cases b s <;> simp [h]
@[simp] theorem clockgen_cycle (b : Bool) (s : State) : (clockgen b s).cycle = s.cycle := by
  obtain ⟨-, h⟩ | ⟨-, -, h⟩ | ⟨-, -, h⟩ := clockgen_cases b s <;> simp [h]
@[simp] theorem clockgen_epoch (b : Bool) (s : State) : (clockgen b s).epoch = s.epoch := by
  obtain ⟨-, h⟩ | ⟨-, -, h⟩ | ⟨-, -, h⟩ := clockgen_cases b s <;> simp [h]
@[simp] theorem clockgen_inputs (b : Bool) (s : State) : (clockgen b s).inputs = s.inputs := by
  obtain ⟨-, h⟩ | ⟨-, -, h⟩ | ⟨-, -, h⟩ := clockgen_cases b s <;> simp [h]
@[simp] theorem clockgen_resp (b : Bool) (s : State) : (clockgen b s).out.resp = s.out.resp := by
  obtain ⟨-, h⟩ | ⟨-, -, h⟩ | ⟨-, -, h⟩ := clockgen_cases b s <;> simp [h]
@[simp] theorem clockgen_fullOut (b : Bool) (s : State) : (clockgen b s).out.fullOut = s.out.fullOut := by
  obtain ⟨-, h⟩ | ⟨-, -, h⟩ | ⟨-, -, h⟩ := clockgen_cases b s <;> simp [h]
@[simp] theorem clockgen_viewOut (b : Bool) (s : State) : (clockgen b s).out.viewOut = s.out.viewOut := by
  obtain ⟨-, h⟩ | ⟨-, -, h⟩ | ⟨-, -, h⟩ := clockgen_cases b s <;> simp [h]
@[simp] theorem clockgen_rangeOut (b : Bool) (s : State) : (clockgen b s).out.rangeOut = s.out.rangeOut := by
  obtain ⟨-, h⟩ | ⟨-, -, h⟩ | ⟨-, -, h⟩ := clockgen_cases b s <;> simp [h]
@[simp] theorem rangeUpdate_cfg (s : State) : (rangeUpdate s).cfg = s.cfg := by
  obtain ⟨-, -, h⟩ | ⟨-, h⟩ := rangeUpdate_cases s <;> simp [h]
@[simp] theorem rangeUpdate_buf (s : State) : (rangeUpdate s).buf = s.buf := by
  obtain ⟨-, -, h⟩ | ⟨-, h⟩ := rangeUpdate_cases s <;> simp [h]
@[simp] theorem rangeUpdate_cursor (s : State) : (rangeUpdate s).cursor = s.cursor := by
  obtain ⟨-, -, h⟩ | ⟨-, h⟩ := rangeUpdate_cases s <;> simp [h]
@[simp] theorem rangeUpdate_masked (s : State) : (rangeUpdate s).masked = s.masked := by
  obtain ⟨-, -, h⟩ | ⟨-, h⟩ := rangeUpdate_cases s <;> simp [h]
@[simp] theorem rangeUpdate_pendV (s : State) : (rangeUpdate s).pendV = s.pendV := by
  obtain ⟨-, -, h⟩ | ⟨-, h⟩ := rangeUpdate_cases s <;> simp [h]
@[simp] theorem rangeUpdate_pendD (s : State) : (rangeUpdate s).pendD = s.pendD := by
  obtain ⟨-, -, h⟩ | ⟨-, h⟩ := rangeUpdate_cases s <;> simp [h]
@[simp] theorem rangeUpdate_period (s : State) : (rangeUpdate s).period = s.period := by
  obtain ⟨-, -, h⟩ | ⟨-, h⟩ := rangeUpdate_cases s <;> simp [h]
@[simp] theorem rangeUpdate_running (s : State) : (rangeUpdate s).running = s.running := by
  obtain ⟨-, -, h⟩ | ⟨-, h⟩ := rangeUpdate_cases s <;> simp [h]
@[simp] theorem rangeUpdate_count (s : State) : (rangeUpdate s).count = s.count := by
  obtain ⟨-, -, h⟩ | ⟨-, h⟩ := rangeUpdate_cases s <;> simp [h]
@[simp] theorem rangeUpdate_prevA (s : State) : (rangeUpdate s).prevA = s.prevA := by
  obtain ⟨-, -, h⟩ | ⟨-, h⟩ := rangeUpdate_cases s <;> simp [h]
@[simp] theorem rangeUpdate_prevB (s : State) : (rangeUpdate s).prevB = s.prevB := by
  obtain ⟨-, -, h⟩ | ⟨-, h⟩ := rangeUpdate_cases s <;> simp [h]
@[simp] theorem rangeUpdate_selector (s : State) : (rangeUpdate s).selector = s.selector := by
  obtain ⟨-, -, h⟩ | ⟨-, h⟩ := rangeUpdate_cases s <;> simp [h]
@[simp] theorem rangeUpdate_view (s : State) : (rangeUpdate s).view = s.view := by
  obtain ⟨-, -, h⟩ | ⟨-, h⟩ := rangeUpdate_cases s <;> simp [h]
@[simp] theorem rangeUpdate_fault (s : State) : (rangeUpdate s).fault = s.fault := by
  obtain ⟨-, -, h⟩ | ⟨-, h⟩ := rangeUpdate_cases s <;> simp [h]
@[simp] theorem rangeUpdate_cycle (s : State) : (rangeUpdate s).cycle = s.cycle := by
  obtain ⟨-, -, h⟩ | ⟨-, h⟩ := rangeUpdate_cases s <;> simp [h]
@[simp] theorem rangeUpdate_epoch (s : State) : (rangeUpdate s).epoch = s.epoch := by
  obtain ⟨-, -, h⟩ | ⟨-, h⟩ := rangeUpdate_cases s <;> simp [h]
@[simp] theorem rangeUpdate_inputs (s : State) : (rangeUpdate s).inputs = s.inputs := by
  obtain ⟨-, -, h⟩ | ⟨-, h⟩ := rangeUpdate_cases s <;> simp [h]
@[simp] theorem rangeUpdate_out (s : State) : (rangeUpdate s).out = s.out := by
  obtain ⟨-, -, h⟩ | ⟨-, h⟩ := rangeUpdate_cases s <;> simp [h]

end Sys2Proof.Machine
end

