-- ==== Sys2Proof/Laws/Exec.lean ====
section
/-! SUPPORT. Each operation's meaning, inverted once: when it answers a next state, and which. -/

namespace Sys2Proof.Machine

theorem exec_nop_next {s t : State} : exec .nop s = .next t ↔ t = respond 0#64 s := by
  simp [exec, execNop, eq_comm]

theorem exec_cfgper_next {p : Half} {s t : State} :
    exec (.cfgper p) s = .next t ↔ p ≠ 0#16 ∧ t = respond 0#64 (setPeriod p s) := by
  have hp : p.toNat = 0 ↔ p = 0#16 := by
    rw [← BitVec.toNat_inj]; rfl
  by_cases h : p = 0#16
  · simp [exec, execCfgper, operandNat, raiseFault, h]
  · simp [exec, execCfgper, operandNat, hp, h, eq_comm]

theorem period_zero_iff {p : Half} : p.toNat = 0 ↔ p = 0#16 := by
  rw [← BitVec.toNat_inj]; rfl

theorem exec_start_next {s t : State} :
    exec .start s = .next t ↔
      (s.running = true ∧ t = respond 0#64 s) ∨
      (s.running = false ∧ s.period ≠ 0#16 ∧ t = respond 0#64 (startClock s)) := by
  cases hr : s.running
  · by_cases h : s.period = 0#16
    · simp [exec, execStart, hr, h, raiseFault]
    · have h0 : s.period.toNat ≠ 0 := mt period_zero_iff.mp h
      simp only [exec, execStart, hr, if_neg h0, Bool.false_eq_true, if_false,
        Host.Outcome.next.injEq, false_and, false_or, true_and, ne_eq, h, not_false_eq_true]
      exact eq_comm
  · simp only [exec, execStart, hr, if_true, Host.Outcome.next.injEq, true_and, Bool.true_eq_false,
      false_and, or_false]
    exact eq_comm

theorem exec_mask_next {s t : State} :
    exec .mask s = .next t ↔ t = respond 0#64 (setMasked true s) := by
  simp [exec, execMask, eq_comm]

theorem exec_unmask_next {s t : State} :
    exec .unmask s = .next t ↔ t = respond 0#64 (setMasked false s) := by
  simp [exec, execUnmask, eq_comm]

theorem exec_clear_next {s t : State} :
    exec .clear s = .next t ↔ t = respond 0#64 (setCursor 0 s) := by
  simp [exec, execClear, eq_comm]

theorem exec_rdbuf_next {a : Half} {s t : State} :
    exec (.rdbuf a) s = .next t ↔
      a.toNat ≤ s.cfg.width ∧ t = respond (zextByte (readCell s a.toNat)) s := by
  by_cases h : s.cfg.width < a.toNat
  · simp [exec, execRdbuf, operandNat, h, raiseFault]
  · simp [exec, execRdbuf, operandNat, h, eq_comm]
    omega

theorem registerValue_isSome {s : State} {n : Nat} : (registerValue s n).isSome ↔ n ≤ 4 := by
  unfold registerValue
  split_ifs <;> simp <;> omega

theorem exec_rdreg_next {idx : Half} {s t : State} :
    exec (.rdreg idx) s = .next t ↔
      ∃ v, registerValue s idx.toNat = some v ∧ t = respond (zextWord v) s := by
  cases h : registerValue s idx.toNat
  · simp [exec, execRdreg, operandNat, h, raiseFault]
  · simp [exec, execRdreg, operandNat, h, eq_comm]

theorem exec_maprow_next {d : Byte} {s t : State} :
    exec (.maprow d) s = .next t ↔ t = respond (zextHalf (rowHalf s.cfg d)) s := by
  simp [exec, execMaprow, eq_comm]

theorem exec_segment_next {k : Half} {s t : State} :
    exec (.segment k) s = .next t ↔
      k.toNat + 2 ≤ s.cfg.width ∧ t = respond (segmentResponse s k.toNat) s := by
  by_cases h : s.cfg.width < k.toNat + 2
  · simp [exec, execSegment, operandNat, h, raiseFault]
  · simp [exec, execSegment, operandNat, h, eq_comm]
    omega

theorem exec_hilite_next {r : Half} {s t : State} :
    exec (.hilite r) s = .next t ↔
      r.toNat < s.cfg.nItems ∧
        t = respond (if s.selector = r.toNat + 1 then 1#64 else 0#64) s := by
  by_cases h : s.cfg.nItems ≤ r.toNat
  · simp [exec, execHilite, operandNat, h, raiseFault]
  · simp only [exec, execHilite, operandNat, h, if_false, Host.Outcome.next.injEq, eq_comm]
    constructor
    · exact fun ht => ⟨by omega, ht⟩
    · exact fun ht => ht.2

/-- The state after a completion, under either policy. -/
def completed (d : Byte) (s : State) : State :=
  match s.cfg.maskedPolicy with
  | .drop => completeDrop d s
  | .latchOne => completeLatch d s

theorem exec_completion (d : Byte) (s : State) : exec (.completion d) s = .next (completed d s) := by
  cases h : s.cfg.maskedPolicy <;> simp [exec, execCompletion, completed, h]

theorem exec_edgeA (s : State) :
    exec .edgeA s = .next (setSelector (advanced s.cfg.nItems s.selector) s) := rfl

theorem exec_edgeB (s : State) : exec .edgeB s = .next (setView (toggled s.view) s) := rfl

/-- The four things a completion can do (R140, R141): nothing; hold the sample; append it, whatever was
held. -/
theorem completed_cases (d : Byte) (s : State) :
    (s.masked = true ∧ s.cfg.maskedPolicy = .drop ∧ completed d s = s) ∨
    (s.masked = true ∧ s.cfg.maskedPolicy = .latchOne ∧ completed d s = latchPend d s) ∨
    (s.masked = false ∧ s.cfg.maskedPolicy = .drop ∧ completed d s = appendSample d s) ∨
    (s.masked = false ∧ s.cfg.maskedPolicy = .latchOne ∧
      completed d s = appendSample d (dropPend s)) := by
  cases hp : s.cfg.maskedPolicy <;> cases hm : s.masked <;>
    simp [completed, hp, completeDrop, completeLatch, hm]

/-- The two things a cycle without completion can do (R141). -/
theorem serviceLatch_cases (s : State) :
    (¬ (s.cfg.maskedPolicy = .latchOne ∧ s.masked = false ∧ s.pendV = true) ∧ serviceLatch s = s) ∨
    (s.cfg.maskedPolicy = .latchOne ∧ s.masked = false ∧ s.pendV = true ∧
      serviceLatch s = appendSample s.pendD (dropPend s)) := by
  cases hp : s.cfg.maskedPolicy <;> cases hm : s.masked <;> cases hv : s.pendV <;>
    simp [serviceLatch, hp, hm, hv]

@[simp] theorem completed_cfg (d : Byte) (s : State) : (completed d s).cfg = s.cfg := by
  obtain ⟨-, -, h⟩ | ⟨-, -, h⟩ | ⟨-, -, h⟩ | ⟨-, -, h⟩ := completed_cases d s <;> simp [h]
@[simp] theorem completed_masked (d : Byte) (s : State) : (completed d s).masked = s.masked := by
  obtain ⟨-, -, h⟩ | ⟨-, -, h⟩ | ⟨-, -, h⟩ | ⟨-, -, h⟩ := completed_cases d s <;> simp [h]
@[simp] theorem completed_period (d : Byte) (s : State) : (completed d s).period = s.period := by
  obtain ⟨-, -, h⟩ | ⟨-, -, h⟩ | ⟨-, -, h⟩ | ⟨-, -, h⟩ := completed_cases d s <;> simp [h]
@[simp] theorem completed_running (d : Byte) (s : State) : (completed d s).running = s.running := by
  obtain ⟨-, -, h⟩ | ⟨-, -, h⟩ | ⟨-, -, h⟩ | ⟨-, -, h⟩ := completed_cases d s <;> simp [h]
@[simp] theorem completed_count (d : Byte) (s : State) : (completed d s).count = s.count := by
  obtain ⟨-, -, h⟩ | ⟨-, -, h⟩ | ⟨-, -, h⟩ | ⟨-, -, h⟩ := completed_cases d s <;> simp [h]
@[simp] theorem completed_prevA (d : Byte) (s : State) : (completed d s).prevA = s.prevA := by
  obtain ⟨-, -, h⟩ | ⟨-, -, h⟩ | ⟨-, -, h⟩ | ⟨-, -, h⟩ := completed_cases d s <;> simp [h]
@[simp] theorem completed_prevB (d : Byte) (s : State) : (completed d s).prevB = s.prevB := by
  obtain ⟨-, -, h⟩ | ⟨-, -, h⟩ | ⟨-, -, h⟩ | ⟨-, -, h⟩ := completed_cases d s <;> simp [h]
@[simp] theorem completed_selector (d : Byte) (s : State) : (completed d s).selector = s.selector := by
  obtain ⟨-, -, h⟩ | ⟨-, -, h⟩ | ⟨-, -, h⟩ | ⟨-, -, h⟩ := completed_cases d s <;> simp [h]
@[simp] theorem completed_view (d : Byte) (s : State) : (completed d s).view = s.view := by
  obtain ⟨-, -, h⟩ | ⟨-, -, h⟩ | ⟨-, -, h⟩ | ⟨-, -, h⟩ := completed_cases d s <;> simp [h]
@[simp] theorem completed_range (d : Byte) (s : State) : (completed d s).range = s.range := by
  obtain ⟨-, -, h⟩ | ⟨-, -, h⟩ | ⟨-, -, h⟩ | ⟨-, -, h⟩ := completed_cases d s <;> simp [h]
@[simp] theorem completed_fault (d : Byte) (s : State) : (completed d s).fault = s.fault := by
  obtain ⟨-, -, h⟩ | ⟨-, -, h⟩ | ⟨-, -, h⟩ | ⟨-, -, h⟩ := completed_cases d s <;> simp [h]
@[simp] theorem completed_cycle (d : Byte) (s : State) : (completed d s).cycle = s.cycle := by
  obtain ⟨-, -, h⟩ | ⟨-, -, h⟩ | ⟨-, -, h⟩ | ⟨-, -, h⟩ := completed_cases d s <;> simp [h]
@[simp] theorem completed_epoch (d : Byte) (s : State) : (completed d s).epoch = s.epoch := by
  obtain ⟨-, -, h⟩ | ⟨-, -, h⟩ | ⟨-, -, h⟩ | ⟨-, -, h⟩ := completed_cases d s <;> simp [h]
@[simp] theorem completed_inputs (d : Byte) (s : State) : (completed d s).inputs = s.inputs := by
  obtain ⟨-, -, h⟩ | ⟨-, -, h⟩ | ⟨-, -, h⟩ | ⟨-, -, h⟩ := completed_cases d s <;> simp [h]
@[simp] theorem completed_out (d : Byte) (s : State) : (completed d s).out = s.out := by
  obtain ⟨-, -, h⟩ | ⟨-, -, h⟩ | ⟨-, -, h⟩ | ⟨-, -, h⟩ := completed_cases d s <;> simp [h]
@[simp] theorem serviceLatch_cfg (s : State) : (serviceLatch s).cfg = s.cfg := by
  obtain ⟨-, h⟩ | ⟨-, -, -, h⟩ := serviceLatch_cases s <;> simp [h]
@[simp] theorem serviceLatch_masked (s : State) : (serviceLatch s).masked = s.masked := by
  obtain ⟨-, h⟩ | ⟨-, -, -, h⟩ := serviceLatch_cases s <;> simp [h]
@[simp] theorem serviceLatch_period (s : State) : (serviceLatch s).period = s.period := by
  obtain ⟨-, h⟩ | ⟨-, -, -, h⟩ := serviceLatch_cases s <;> simp [h]
@[simp] theorem serviceLatch_running (s : State) : (serviceLatch s).running = s.running := by
  obtain ⟨-, h⟩ | ⟨-, -, -, h⟩ := serviceLatch_cases s <;> simp [h]
@[simp] theorem serviceLatch_count (s : State) : (serviceLatch s).count = s.count := by
  obtain ⟨-, h⟩ | ⟨-, -, -, h⟩ := serviceLatch_cases s <;> simp [h]
@[simp] theorem serviceLatch_prevA (s : State) : (serviceLatch s).prevA = s.prevA := by
  obtain ⟨-, h⟩ | ⟨-, -, -, h⟩ := serviceLatch_cases s <;> simp [h]
@[simp] theorem serviceLatch_prevB (s : State) : (serviceLatch s).prevB = s.prevB := by
  obtain ⟨-, h⟩ | ⟨-, -, -, h⟩ := serviceLatch_cases s <;> simp [h]
@[simp] theorem serviceLatch_selector (s : State) : (serviceLatch s).selector = s.selector := by
  obtain ⟨-, h⟩ | ⟨-, -, -, h⟩ := serviceLatch_cases s <;> simp [h]
@[simp] theorem serviceLatch_view (s : State) : (serviceLatch s).view = s.view := by
  obtain ⟨-, h⟩ | ⟨-, -, -, h⟩ := serviceLatch_cases s <;> simp [h]
@[simp] theorem serviceLatch_range (s : State) : (serviceLatch s).range = s.range := by
  obtain ⟨-, h⟩ | ⟨-, -, -, h⟩ := serviceLatch_cases s <;> simp [h]
@[simp] theorem serviceLatch_fault (s : State) : (serviceLatch s).fault = s.fault := by
  obtain ⟨-, h⟩ | ⟨-, -, -, h⟩ := serviceLatch_cases s <;> simp [h]
@[simp] theorem serviceLatch_cycle (s : State) : (serviceLatch s).cycle = s.cycle := by
  obtain ⟨-, h⟩ | ⟨-, -, -, h⟩ := serviceLatch_cases s <;> simp [h]
@[simp] theorem serviceLatch_epoch (s : State) : (serviceLatch s).epoch = s.epoch := by
  obtain ⟨-, h⟩ | ⟨-, -, -, h⟩ := serviceLatch_cases s <;> simp [h]
@[simp] theorem serviceLatch_inputs (s : State) : (serviceLatch s).inputs = s.inputs := by
  obtain ⟨-, h⟩ | ⟨-, -, -, h⟩ := serviceLatch_cases s <;> simp [h]
@[simp] theorem serviceLatch_out (s : State) : (serviceLatch s).out = s.out := by
  obtain ⟨-, h⟩ | ⟨-, -, -, h⟩ := serviceLatch_cases s <;> simp [h]

/-- A fault of a command: the code of its cause, the cycle and the command's word. -/
theorem exec_fault_cases {i : Instr} {s : State} {f : Fault} (h : exec i s = .fault f) :
    (i = .cfgper 0#16 ∧ f = .periodZero s.cycle (commandWord i)) ∨
    (i = .start ∧ s.running = false ∧ s.period = 0#16 ∧ f = .notConfigured s.cycle (commandWord i)) ∨
    (∃ a, i = .rdbuf a ∧ s.cfg.width < a.toNat ∧ f = .bufAddr s.cycle (commandWord i)) ∨
    (∃ k, i = .segment k ∧ s.cfg.width < k.toNat + 2 ∧ f = .segIndex s.cycle (commandWord i)) ∨
    (∃ r, i = .hilite r ∧ s.cfg.nItems ≤ r.toNat ∧ f = .rowIndex s.cycle (commandWord i)) ∨
    (∃ n, i = .rdreg n ∧ 4 < n.toNat ∧ f = .regIndex s.cycle (commandWord i)) := by
  cases i with
  | nop => simp [exec, execNop] at h
  | cfgper p =>
    by_cases hp : p.toNat = 0
    · obtain rfl := period_zero_iff.mp hp
      simp [exec, execCfgper, operandNat, raiseFault] at h
      exact .inl ⟨rfl, h.symm⟩
    · simp [exec, execCfgper, operandNat, hp] at h
  | start =>
    cases hr : s.running
    · by_cases hp : s.period = 0#16
      · simp [exec, execStart, hr, hp, raiseFault] at h
        exact .inr (.inl ⟨rfl, rfl, hp, h.symm⟩)
      · have := exec_start_next.mpr (.inr ⟨hr, hp, rfl⟩)
        simp [this] at h
    · simp [exec, execStart, hr] at h
  | mask => simp [exec, execMask] at h
  | unmask => simp [exec, execUnmask] at h
  | clear => simp [exec, execClear] at h
  | rdbuf a =>
    by_cases ha : s.cfg.width < a.toNat
    · simp [exec, execRdbuf, operandNat, ha, raiseFault] at h
      exact .inr (.inr (.inl ⟨a, rfl, ha, h.symm⟩))
    · simp [exec, execRdbuf, operandNat, ha] at h
  | rdreg n =>
    cases hv : registerValue s n.toNat with
    | some v => simp [exec, execRdreg, operandNat, hv] at h
    | none =>
      have hn : ¬ n.toNat ≤ 4 := fun hle => by
        simpa [hv] using (registerValue_isSome (s := s)).mpr hle
      simp [exec, execRdreg, operandNat, hv, raiseFault] at h
      exact .inr (.inr (.inr (.inr (.inr ⟨n, rfl, by omega, h.symm⟩))))
  | maprow d => simp [exec, execMaprow] at h
  | segment k =>
    by_cases hk : s.cfg.width < k.toNat + 2
    · simp [exec, execSegment, operandNat, hk, raiseFault] at h
      exact .inr (.inr (.inr (.inl ⟨k, rfl, hk, h.symm⟩)))
    · simp [exec, execSegment, operandNat, hk] at h
  | hilite r =>
    by_cases hr : s.cfg.nItems ≤ r.toNat
    · simp [exec, execHilite, operandNat, hr, raiseFault] at h
      exact .inr (.inr (.inr (.inr (.inl ⟨r, rfl, hr, h.symm⟩))))
    · simp [exec, execHilite, operandNat, hr] at h
  | completion d => simp [exec_completion] at h
  | edgeA => simp [exec_edgeA] at h
  | edgeB => simp [exec_edgeB] at h

/-- What a command faults with does not depend on the inputs to come. -/
theorem exec_popInput_fault {i : Instr} {s : State} {f : Fault} :
    exec i (popInput s) = .fault f ↔ exec i s = .fault f := by
  cases i with
  | start =>
    by_cases hr : s.running = true <;> by_cases hp : s.period.toNat = 0 <;>
      simp [exec, execStart, raiseFault, hr, hp]
  | rdreg n =>
    simp only [exec, execRdreg,
      show registerValue (popInput s) (operandNat n) = registerValue s (operandNat n) from rfl]
    cases registerValue s (operandNat n) <;> simp [raiseFault]
  | cfgper p => by_cases h : operandNat p = 0 <;> simp [exec, execCfgper, raiseFault, h]
  | rdbuf a => by_cases h : s.cfg.width < operandNat a <;> simp [exec, execRdbuf, raiseFault, h]
  | segment k => by_cases h : s.cfg.width < operandNat k + 2 <;> simp [exec, execSegment, raiseFault, h]
  | hilite r => by_cases h : s.cfg.nItems ≤ operandNat r <;> simp [exec, execHilite, raiseFault, h]
  | nop => simp [exec, execNop]
  | mask => simp [exec, execMask]
  | unmask => simp [exec, execUnmask]
  | clear => simp [exec, execClear]
  | maprow d => simp [exec, execMaprow]
  | completion d => simp [exec_completion]
  | edgeA => simp [exec_edgeA]
  | edgeB => simp [exec_edgeB]

end Sys2Proof.Machine
end

