-- ==== Sys2Proof/Laws/Cycle.lean ====
section
/-! SUPPORT. What one cycle can do, said once: after its command, a cycle's phases never stop and leave one
state; a cycle that answers a next state is a reset cycle or runs a command (spec/40 R100). -/

namespace Sys2Proof.Machine

open Sys2Proof.Safety

/-! ## The phases after the command, as one state -/

/-- Phase 2. -/
def afterCompletion (r : CycleRecord) (s : State) : State :=
  if r.adcValid then completed r.adcData s else serviceLatch s

/-- ADVANCE when `b`. -/
def advanceWhen (b : Bool) (s : State) : State :=
  if b then setSelector (advanced s.cfg.nItems s.selector) s else s

/-- CONFIRM when `b`. -/
def confirmWhen (b : Bool) (s : State) : State :=
  if b then setView (toggled s.view) s else s

/-- Phase 3. -/
def afterEdges (r : CycleRecord) (s : State) : State :=
  confirmWhen (edgeSeen s.cfg.polB s.prevB r.pinB)
    (advanceWhen (edgeSeen s.cfg.polA s.prevA r.pinA) (samplePins r.pinA r.pinB s))

/-- Phases 2 to 5 of the cycle that began in `s0`, after the command left `w`. -/
def cycleEnd (r : CycleRecord) (s0 w : State) : State :=
  finishCycle s0 (afterEdges r (afterCompletion r w))

theorem completionPhase_eq (r : CycleRecord) (s : State) :
    completionPhase r s = .next (afterCompletion r s) := by
  cases h : r.adcValid <;> simp [completionPhase, afterCompletion, h, exec_completion]

theorem execWhen_edgeA (b : Bool) (s : State) : execWhen b .edgeA s = .next (advanceWhen b s) := by
  cases b <;> simp [execWhen, advanceWhen, exec_edgeA]

theorem execWhen_edgeB (b : Bool) (s : State) : execWhen b .edgeB s = .next (confirmWhen b s) := by
  cases b <;> simp [execWhen, confirmWhen, exec_edgeB]

theorem edgePhase_eq (r : CycleRecord) (s : State) : edgePhase r s = .next (afterEdges r s) := by
  simp [edgePhase, execWhen_edgeA, execWhen_edgeB, afterEdges]

/-- The phases after the command never stop. -/
theorem eventPhases_eq (r : CycleRecord) (s0 w : State) :
    eventPhases r s0 w = .next (cycleEnd r s0 w) := by
  simp [eventPhases, completionPhase_eq, edgePhase_eq, cycleEnd]

/-! ## Their fields -/

@[simp] theorem afterCompletion_cfg (r : CycleRecord) (s : State) : (afterCompletion r s).cfg = s.cfg := by
  simp only [afterCompletion]; split <;> simp
@[simp] theorem afterCompletion_masked (r : CycleRecord) (s : State) : (afterCompletion r s).masked = s.masked := by
  simp only [afterCompletion]; split <;> simp
@[simp] theorem afterCompletion_period (r : CycleRecord) (s : State) : (afterCompletion r s).period = s.period := by
  simp only [afterCompletion]; split <;> simp
@[simp] theorem afterCompletion_running (r : CycleRecord) (s : State) : (afterCompletion r s).running = s.running := by
  simp only [afterCompletion]; split <;> simp
@[simp] theorem afterCompletion_count (r : CycleRecord) (s : State) : (afterCompletion r s).count = s.count := by
  simp only [afterCompletion]; split <;> simp
@[simp] theorem afterCompletion_prevA (r : CycleRecord) (s : State) : (afterCompletion r s).prevA = s.prevA := by
  simp only [afterCompletion]; split <;> simp
@[simp] theorem afterCompletion_prevB (r : CycleRecord) (s : State) : (afterCompletion r s).prevB = s.prevB := by
  simp only [afterCompletion]; split <;> simp
@[simp] theorem afterCompletion_selector (r : CycleRecord) (s : State) : (afterCompletion r s).selector = s.selector := by
  simp only [afterCompletion]; split <;> simp
@[simp] theorem afterCompletion_view (r : CycleRecord) (s : State) : (afterCompletion r s).view = s.view := by
  simp only [afterCompletion]; split <;> simp
@[simp] theorem afterCompletion_range (r : CycleRecord) (s : State) : (afterCompletion r s).range = s.range := by
  simp only [afterCompletion]; split <;> simp
@[simp] theorem afterCompletion_fault (r : CycleRecord) (s : State) : (afterCompletion r s).fault = s.fault := by
  simp only [afterCompletion]; split <;> simp
@[simp] theorem afterCompletion_cycle (r : CycleRecord) (s : State) : (afterCompletion r s).cycle = s.cycle := by
  simp only [afterCompletion]; split <;> simp
@[simp] theorem afterCompletion_epoch (r : CycleRecord) (s : State) : (afterCompletion r s).epoch = s.epoch := by
  simp only [afterCompletion]; split <;> simp
@[simp] theorem afterCompletion_inputs (r : CycleRecord) (s : State) : (afterCompletion r s).inputs = s.inputs := by
  simp only [afterCompletion]; split <;> simp
@[simp] theorem afterCompletion_out (r : CycleRecord) (s : State) : (afterCompletion r s).out = s.out := by
  simp only [afterCompletion]; split <;> simp
@[simp] theorem afterEdges_cfg (r : CycleRecord) (s : State) : (afterEdges r s).cfg = s.cfg := by
  simp only [afterEdges, confirmWhen, advanceWhen]; split_ifs <;> simp
@[simp] theorem afterEdges_buf (r : CycleRecord) (s : State) : (afterEdges r s).buf = s.buf := by
  simp only [afterEdges, confirmWhen, advanceWhen]; split_ifs <;> simp
@[simp] theorem afterEdges_cursor (r : CycleRecord) (s : State) : (afterEdges r s).cursor = s.cursor := by
  simp only [afterEdges, confirmWhen, advanceWhen]; split_ifs <;> simp
@[simp] theorem afterEdges_masked (r : CycleRecord) (s : State) : (afterEdges r s).masked = s.masked := by
  simp only [afterEdges, confirmWhen, advanceWhen]; split_ifs <;> simp
@[simp] theorem afterEdges_pendV (r : CycleRecord) (s : State) : (afterEdges r s).pendV = s.pendV := by
  simp only [afterEdges, confirmWhen, advanceWhen]; split_ifs <;> simp
@[simp] theorem afterEdges_pendD (r : CycleRecord) (s : State) : (afterEdges r s).pendD = s.pendD := by
  simp only [afterEdges, confirmWhen, advanceWhen]; split_ifs <;> simp
@[simp] theorem afterEdges_period (r : CycleRecord) (s : State) : (afterEdges r s).period = s.period := by
  simp only [afterEdges, confirmWhen, advanceWhen]; split_ifs <;> simp
@[simp] theorem afterEdges_running (r : CycleRecord) (s : State) : (afterEdges r s).running = s.running := by
  simp only [afterEdges, confirmWhen, advanceWhen]; split_ifs <;> simp
@[simp] theorem afterEdges_count (r : CycleRecord) (s : State) : (afterEdges r s).count = s.count := by
  simp only [afterEdges, confirmWhen, advanceWhen]; split_ifs <;> simp
@[simp] theorem afterEdges_range (r : CycleRecord) (s : State) : (afterEdges r s).range = s.range := by
  simp only [afterEdges, confirmWhen, advanceWhen]; split_ifs <;> simp
@[simp] theorem afterEdges_fault (r : CycleRecord) (s : State) : (afterEdges r s).fault = s.fault := by
  simp only [afterEdges, confirmWhen, advanceWhen]; split_ifs <;> simp
@[simp] theorem afterEdges_cycle (r : CycleRecord) (s : State) : (afterEdges r s).cycle = s.cycle := by
  simp only [afterEdges, confirmWhen, advanceWhen]; split_ifs <;> simp
@[simp] theorem afterEdges_epoch (r : CycleRecord) (s : State) : (afterEdges r s).epoch = s.epoch := by
  simp only [afterEdges, confirmWhen, advanceWhen]; split_ifs <;> simp
@[simp] theorem afterEdges_inputs (r : CycleRecord) (s : State) : (afterEdges r s).inputs = s.inputs := by
  simp only [afterEdges, confirmWhen, advanceWhen]; split_ifs <;> simp
@[simp] theorem afterEdges_out (r : CycleRecord) (s : State) : (afterEdges r s).out = s.out := by
  simp only [afterEdges, confirmWhen, advanceWhen]; split_ifs <;> simp

@[simp] theorem afterEdges_selector (r : CycleRecord) (s : State) :
    (afterEdges r s).selector =
      if edgeSeen s.cfg.polA s.prevA r.pinA then advanced s.cfg.nItems s.selector else s.selector := by
  cases h : edgeSeen s.cfg.polA s.prevA r.pinA <;>
    cases h' : edgeSeen s.cfg.polB s.prevB r.pinB <;>
    simp [afterEdges, advanceWhen, confirmWhen, h, h']

@[simp] theorem afterEdges_view (r : CycleRecord) (s : State) :
    (afterEdges r s).view =
      if edgeSeen s.cfg.polB s.prevB r.pinB then toggled s.view else s.view := by
  cases h : edgeSeen s.cfg.polA s.prevA r.pinA <;>
    cases h' : edgeSeen s.cfg.polB s.prevB r.pinB <;>
    simp [afterEdges, advanceWhen, confirmWhen, h, h']

@[simp] theorem afterEdges_prevA (r : CycleRecord) (s : State) : (afterEdges r s).prevA = r.pinA := by
  cases h : edgeSeen s.cfg.polA s.prevA r.pinA <;>
    cases h' : edgeSeen s.cfg.polB s.prevB r.pinB <;>
    simp [afterEdges, advanceWhen, confirmWhen, h, h']

@[simp] theorem afterEdges_prevB (r : CycleRecord) (s : State) : (afterEdges r s).prevB = r.pinB := by
  cases h : edgeSeen s.cfg.polA s.prevA r.pinA <;>
    cases h' : edgeSeen s.cfg.polB s.prevB r.pinB <;>
    simp [afterEdges, advanceWhen, confirmWhen, h, h']

@[simp] theorem cycleEnd_cfg (r : CycleRecord) (s0 w : State) : (cycleEnd r s0 w).cfg = w.cfg := by
  simp [cycleEnd, finishCycle]
@[simp] theorem cycleEnd_masked (r : CycleRecord) (s0 w : State) : (cycleEnd r s0 w).masked = w.masked := by
  simp [cycleEnd, finishCycle]
@[simp] theorem cycleEnd_period (r : CycleRecord) (s0 w : State) : (cycleEnd r s0 w).period = w.period := by
  simp [cycleEnd, finishCycle]
@[simp] theorem cycleEnd_running (r : CycleRecord) (s0 w : State) : (cycleEnd r s0 w).running = w.running := by
  simp [cycleEnd, finishCycle]
@[simp] theorem cycleEnd_fault (r : CycleRecord) (s0 w : State) : (cycleEnd r s0 w).fault = w.fault := by
  simp [cycleEnd, finishCycle]
@[simp] theorem cycleEnd_epoch (r : CycleRecord) (s0 w : State) : (cycleEnd r s0 w).epoch = w.epoch := by
  simp [cycleEnd, finishCycle]
@[simp] theorem cycleEnd_inputs (r : CycleRecord) (s0 w : State) : (cycleEnd r s0 w).inputs = w.inputs := by
  simp [cycleEnd, finishCycle]
@[simp] theorem cycleEnd_cycle (r : CycleRecord) (s0 w : State) : (cycleEnd r s0 w).cycle = w.cycle + 1 := by
  simp [cycleEnd, finishCycle]
@[simp] theorem cycleEnd_resp (r : CycleRecord) (s0 w : State) : (cycleEnd r s0 w).out.resp = w.out.resp := by
  simp [cycleEnd, finishCycle]

@[simp] theorem cycleEnd_prevA (r : CycleRecord) (s0 w : State) : (cycleEnd r s0 w).prevA = r.pinA := by
  simp [cycleEnd, finishCycle]

@[simp] theorem cycleEnd_prevB (r : CycleRecord) (s0 w : State) : (cycleEnd r s0 w).prevB = r.pinB := by
  simp [cycleEnd, finishCycle]

theorem cycleEnd_buf (r : CycleRecord) (s0 w : State) :
    (cycleEnd r s0 w).buf = (afterCompletion r w).buf := by
  simp [cycleEnd, finishCycle]

theorem cycleEnd_cursor (r : CycleRecord) (s0 w : State) :
    (cycleEnd r s0 w).cursor = (afterCompletion r w).cursor := by
  simp [cycleEnd, finishCycle]

theorem cycleEnd_pendV (r : CycleRecord) (s0 w : State) :
    (cycleEnd r s0 w).pendV = (afterCompletion r w).pendV := by
  simp [cycleEnd, finishCycle]

theorem cycleEnd_selector (r : CycleRecord) (s0 w : State) :
    (cycleEnd r s0 w).selector =
      if edgeSeen w.cfg.polA w.prevA r.pinA then advanced w.cfg.nItems w.selector else w.selector := by
  simp [cycleEnd, finishCycle]

theorem cycleEnd_view (r : CycleRecord) (s0 w : State) :
    (cycleEnd r s0 w).view =
      if edgeSeen w.cfg.polB w.prevB r.pinB then toggled w.view else w.view := by
  simp [cycleEnd, finishCycle]

/-- `RANGE` at a cycle's end is the range update of the selector at the cycle's end (R200). -/
theorem cycleEnd_range (r : CycleRecord) (s0 w : State) :
    (cycleEnd r s0 w).range =
      if 1 ≤ (cycleEnd r s0 w).selector ∧ (cycleEnd r s0 w).selector ≤ w.cfg.nItems
      then onehot ((cycleEnd r s0 w).selector - 1) else w.range := by
  obtain ⟨h1, h2, h⟩ | ⟨hn, h⟩ := rangeUpdate_cases (afterEdges r (afterCompletion r w))
  · simp only [cycleEnd, finishCycle, nextCycle_range, driveOutputs_range, clockgen_range,
      nextCycle_selector, driveOutputs_selector, clockgen_selector, h, setRange_range,
      setRange_selector]
    rw [if_pos ⟨h1, by simpa using h2⟩]
  · simp only [cycleEnd, finishCycle, nextCycle_range, driveOutputs_range, clockgen_range,
      nextCycle_selector, driveOutputs_selector, clockgen_selector, h]
    rw [if_neg (by simpa using hn)]
    simp

/-- The counter and the trigger at a cycle's end (R122). -/
theorem cycleEnd_clock (r : CycleRecord) (s0 w : State) :
    (s0.running = false ∧ (cycleEnd r s0 w).count = w.count ∧ (cycleEnd r s0 w).out.trig = false) ∨
    (s0.running = true ∧ w.period.toNat ≤ w.count.toNat + 1 ∧ (cycleEnd r s0 w).count = 0#16 ∧
      (cycleEnd r s0 w).out.trig = true) ∨
    (s0.running = true ∧ w.count.toNat + 1 < w.period.toNat ∧
      (cycleEnd r s0 w).count = w.count + 1#16 ∧ (cycleEnd r s0 w).out.trig = false) := by
  obtain ⟨h0, h⟩ | ⟨h0, h1, h⟩ | ⟨h0, h1, h⟩ :=
    clockgen_cases s0.running (rangeUpdate (afterEdges r (afterCompletion r w)))
  · left; refine ⟨h0, ?_⟩; simp [cycleEnd, finishCycle, h]
  · right; left; refine ⟨h0, by simpa using h1, ?_⟩; simp [cycleEnd, finishCycle, h]
  · right; right; refine ⟨h0, by simpa using h1, ?_⟩; simp [cycleEnd, finishCycle, h]

@[simp] theorem cycleEnd_fullOut (r : CycleRecord) (s0 w : State) :
    (cycleEnd r s0 w).out.fullOut = full s0 := rfl

@[simp] theorem cycleEnd_viewOut (r : CycleRecord) (s0 w : State) :
    (cycleEnd r s0 w).out.viewOut = viewBit s0.view := rfl

@[simp] theorem cycleEnd_rangeOut (r : CycleRecord) (s0 w : State) :
    (cycleEnd r s0 w).out.rangeOut = s0.range := rfl

/-- Phase 2 writes one cell at most: where the cursor rises, that cell is the one it pointed to. -/
theorem afterCompletion_store (r : CycleRecord) (s : State) :
    ((afterCompletion r s).buf = s.buf ∧ (afterCompletion r s).cursor = s.cursor) ∨
    (s.masked = false ∧ full s = false ∧ ∃ v,
      (afterCompletion r s).buf = writeMemory s.buf s.cursor v ∧
      (afterCompletion r s).cursor = s.cursor + 1 ∧
      (v = if r.adcValid then r.adcData else s.pendD) ∧ (r.adcValid = false → s.pendV = true)) := by
  have key : ∀ (v : Byte) (u : State), u.buf = s.buf → u.cursor = s.cursor → u.cfg = s.cfg →
      ((appendSample v u).buf = s.buf ∧ (appendSample v u).cursor = s.cursor) ∨
      (full s = false ∧ (appendSample v u).buf = writeMemory s.buf s.cursor v ∧
        (appendSample v u).cursor = s.cursor + 1) := by
    intro v u hb hc hg
    have hf : full u = full s := by simp [full, hc, hg]
    obtain ⟨h1, h⟩ | ⟨h1, h⟩ := appendSample_cases v u
    · left; rw [h]; exact ⟨hb, hc⟩
    · right; rw [h]; exact ⟨hf ▸ h1, by simp [hb, hc], by simp [hc]⟩
  cases hv : r.adcValid with
  | true =>
    simp only [afterCompletion, hv, if_true]
    obtain ⟨-, -, h⟩ | ⟨-, -, h⟩ | ⟨hm, -, h⟩ | ⟨hm, -, h⟩ := completed_cases r.adcData s
    · left; simp [h]
    · left; simp [h]
    · rw [h]
      obtain h' | ⟨hf, h1, h2⟩ := key r.adcData s rfl rfl rfl
      · exact .inl h'
      · exact .inr ⟨hm, hf, _, h1, h2, rfl, by simp⟩
    · rw [h]
      obtain h' | ⟨hf, h1, h2⟩ := key r.adcData (dropPend s) rfl rfl rfl
      · exact .inl h'
      · exact .inr ⟨hm, hf, _, h1, h2, rfl, by simp⟩
  | false =>
    simp only [afterCompletion, hv, Bool.false_eq_true, if_false]
    obtain ⟨-, h⟩ | ⟨-, hm, hp, h⟩ := serviceLatch_cases s
    · left; simp [h]
    · rw [h]
      obtain h' | ⟨hf, h1, h2⟩ := key s.pendD (dropPend s) rfl rfl rfl
      · exact .inl h'
      · exact .inr ⟨hm, hf, _, h1, h2, rfl, fun _ => hp⟩

/-- A completion of an unmasked, not full store is appended. -/
theorem afterCompletion_accepted {r : CycleRecord} {s : State} (hv : r.adcValid = true)
    (hm : s.masked = false) (hf : full s = false) :
    (afterCompletion r s).buf = writeMemory s.buf s.cursor r.adcData ∧
      (afterCompletion r s).cursor = s.cursor + 1 := by
  have hf' : full (dropPend s) = false := by rw [not_full_iff] at hf ⊢; exact hf
  cases hp : s.cfg.maskedPolicy <;>
    simp [afterCompletion, hv, completed, hp, completeDrop, completeLatch, hm,
      appendSample_accepted _ hf, appendSample_accepted _ hf']

/-- Without a completion and with nothing held, phase 2 does nothing. -/
theorem afterCompletion_quiet {r : CycleRecord} {s : State} (hv : r.adcValid = false)
    (hp : s.pendV = false) : afterCompletion r s = s := by
  obtain ⟨-, h⟩ | ⟨-, -, h, -⟩ := serviceLatch_cases s
  · simp [afterCompletion, hv, h]
  · simp [hp] at h

/-- What phase 2 leaves of the latch. -/
theorem afterCompletion_latch (r : CycleRecord) (s : State)
    (h : s.cfg.maskedPolicy = .drop → s.pendV = false) :
    s.cfg.maskedPolicy = .drop ∨ s.masked = false → (afterCompletion r s).pendV = false := by
  intro hh
  cases hv : r.adcValid with
  | true =>
    simp only [afterCompletion, hv, if_true]
    obtain ⟨-, hp, h'⟩ | ⟨hm, hp, h'⟩ | ⟨-, hp, h'⟩ | ⟨-, -, h'⟩ := completed_cases r.adcData s
    · simp [h', h hp]
    · simp [hm, hp] at hh
    · simp [h', h hp]
    · simp [h']
  | false =>
    simp only [afterCompletion, hv, Bool.false_eq_true, if_false]
    obtain ⟨hn, h'⟩ | ⟨-, -, -, h'⟩ := serviceLatch_cases s
    · rw [h']
      rcases hh with hp | hm
      · exact h hp
      · cases hp : s.cfg.maskedPolicy
        · exact h hp
        · simpa [hp, hm] using hn
    · simp [h']

/-! ## A cycle, inverted -/

theorem step_eq_runCycle (s : State) : step s = runCycle s := rfl

/-- A cycle that runs, as its command and its end. -/
theorem step_of_runs {s : State} {r : CycleRecord} (h : Runs s r) :
    step s = commandCycle r (popInput s) := by
  obtain ⟨hf, hl, hn, hr⟩ := h
  simp [step, runCycle, hf, hl, hn, hr]

theorem step_of_issues {s : State} {r : CycleRecord} {i : Instr} (h : Issues s r i) :
    step s = andThen (exec i (popInput s)) (fun w => .next (cycleEnd r (popInput s) w)) := by
  rw [step_of_runs h.1]
  simp only [commandCycle, h.2]
  congr 1
  funext w
  exact eventPhases_eq r _ w

theorem step_of_bad_word {s : State} {r : CycleRecord} {e : CommandError} (h : Runs s r)
    (he : decodeCommand r.cmd = .error e) : step s = .fault (commandFault e s.cycle r.cmd) := by
  rw [step_of_runs h]
  simp [commandCycle, he]

theorem step_of_reset {s : State} (h : InReset s) : step s = .next (resetCycle (popInput s)) := by
  obtain ⟨hf, hl, hn, r, hr⟩ := h
  simp [step, runCycle, hf, hl, hn, hr]

/-- A cycle that runs and answers a next state ran a command, and ended as R100 says. -/
theorem step_next_of_runs {s t : State} {r : CycleRecord} (h : Runs s r) (ht : step s = .next t) :
    ∃ i w, Issues s r i ∧ exec i (popInput s) = .next w ∧ t = cycleEnd r (popInput s) w := by
  cases hd : decodeCommand r.cmd with
  | error e => rw [step_of_bad_word h hd] at ht; exact absurd ht (by simp)
  | ok i =>
    rw [step_of_issues ⟨h, hd⟩, andThen_eq_next] at ht
    obtain ⟨w, hw, he⟩ := ht
    exact ⟨i, w, ⟨h, hd⟩, hw, by simpa using he.symm⟩

/-- All a cycle can do when it answers a next state. -/
theorem step_next_cases {s t : State} (ht : step s = .next t) :
    (InReset s ∧ t = resetCycle (popInput s)) ∨
    ∃ r i w, Issues s r i ∧ exec i (popInput s) = .next w ∧ t = cycleEnd r (popInput s) w := by
  have h0 := ht
  simp only [step, runCycle] at ht
  cases hf : s.fault with
  | some r => simp [hf] at ht
  | none =>
    cases hl : legalConfig s.cfg with
    | false => simp [hf, hl] at ht
    | true =>
      cases hr : decodeRecord (nextInput s).word with
      | error e => simp [hf, hl, hr] at ht
      | ok r =>
        cases hn : (nextInput s).rstN with
        | false =>
          have h : InReset s := ⟨hf, hl, hn, r, hr⟩
          rw [step_of_reset h] at h0
          exact .inl ⟨h, by simpa using h0.symm⟩
        | true =>
          have h : Runs s r := ⟨hf, hl, hn, hr⟩
          obtain ⟨i, w, hi, hw, he⟩ := step_next_of_runs h h0
          exact .inr ⟨r, i, w, hi, hw, he⟩

/-! ## Runs of cycles -/

theorem run_zero (s : State) : run 0 s = .next s := rfl

theorem run_succ (k : Nat) (s : State) : run (k + 1) s = andThen (step s) (run k) := rfl

/-- The first cycle of a run. -/
theorem run_succ_next {k : Nat} {s t : State} :
    run (k + 1) s = .next t ↔ ∃ u, step s = .next u ∧ run k u = .next t := andThen_eq_next

/-- The last cycle of a run. -/
theorem run_succ_last {k : Nat} {s t : State} :
    run (k + 1) s = .next t ↔ ∃ u, run k s = .next u ∧ step u = .next t := by
  induction k generalizing s with
  | zero =>
    rw [run_succ_next]
    constructor
    · rintro ⟨u, h1, h2⟩
      obtain rfl : u = t := by simpa [run] using h2
      exact ⟨s, rfl, h1⟩
    · rintro ⟨u, h1, h2⟩
      obtain rfl : s = u := by simpa [run] using h1
      exact ⟨t, h2, rfl⟩
  | succ k ih =>
    rw [run_succ_next]
    constructor
    · rintro ⟨u, h1, h2⟩
      obtain ⟨v, h3, h4⟩ := ih.mp h2
      exact ⟨v, run_succ_next.mpr ⟨u, h1, h3⟩, h4⟩
    · rintro ⟨v, h3, h4⟩
      obtain ⟨u, h1, h2⟩ := run_succ_next.mp h3
      exact ⟨u, h1, ih.mpr ⟨v, h2, h4⟩⟩

/-- A property that every cycle keeps holds after every run. -/
theorem run_induction {P : State → Prop} (hstep : ∀ s t, P s → step s = .next t → P t) :
    ∀ (k : Nat) (s t : State), P s → run k s = .next t → P t := by
  intro k
  induction k with
  | zero =>
    intro s t hs h
    obtain rfl : s = t := by simpa [run] using h
    exact hs
  | succ k ih =>
    intro s t hs h
    obtain ⟨u, h1, h2⟩ := run_succ_next.mp h
    exact ih u t (hstep s u hs h1) h2

end Sys2Proof.Machine
end

