-- ==== Sys2Proof/Laws/Encoding.lean ====
section
/-! SUPPORT. The fields of command words and cycle records: what each field of an encoded word reads as, and
that a word is made of its fields. -/

namespace Sys2Proof

@[simp] theorem atWord_getLsbD {n : Nat} (lo : Nat) (v : BitVec n) (i : Nat) :
    (atWord lo v).getLsbD i = (decide (i < 32) && decide (lo ≤ i) && v.getLsbD (i - lo)) := by
  simp only [atWord, BitVec.getLsbD_shiftLeft, BitVec.getLsbD_setWidth]
  by_cases h : i < lo
  · simp [h]
  · by_cases h' : i < 32
    · simp [h, h', show i - lo < 32 by omega, show lo ≤ i by omega]
    · simp [h']

@[simp] theorem atLong_getLsbD {n : Nat} (lo : Nat) (v : BitVec n) (i : Nat) :
    (atLong lo v).getLsbD i = (decide (i < 64) && decide (lo ≤ i) && v.getLsbD (i - lo)) := by
  simp only [atLong, BitVec.getLsbD_shiftLeft, BitVec.getLsbD_setWidth]
  by_cases h : i < lo
  · simp [h]
  · by_cases h' : i < 64
    · simp [h, h', show i - lo < 64 by omega, show lo ≤ i by omega]
    · simp [h']

@[simp] theorem opcField_makeWord (o : Byte) (m : Half) : opcField (makeWord o m) = o := by
  apply BitVec.eq_of_getLsbD_eq
  intro i hi
  simp only [opcField, makeWord, BitVec.getLsbD_extractLsb', BitVec.getLsbD_or, atWord_getLsbD, hi]
  simp [show 24 + i < 32 by omega, BitVec.getLsbD_of_ge m (24 + i) (by omega)]

@[simp] theorem rsvField_makeWord (o : Byte) (m : Half) : rsvField (makeWord o m) = 0#8 := by
  apply BitVec.eq_of_getLsbD_eq
  intro i hi
  simp only [rsvField, makeWord, BitVec.getLsbD_extractLsb', BitVec.getLsbD_or, atWord_getLsbD, hi]
  simp [show ¬ 24 ≤ 16 + i by omega]

@[simp] theorem immField_makeWord (o : Byte) (m : Half) : immField (makeWord o m) = m := by
  apply BitVec.eq_of_getLsbD_eq
  intro i hi
  simp only [immField, makeWord, BitVec.getLsbD_extractLsb', BitVec.getLsbD_or, atWord_getLsbD, hi]
  simp [show ¬ 24 ≤ i by omega, show i < 32 by omega]

/-- A word with `RSV = 0` is made of its opcode and its immediate. -/
theorem makeWord_fields {w : Word} (h : rsvField w = 0#8) : makeWord (opcField w) (immField w) = w := by
  apply BitVec.eq_of_getLsbD_eq
  intro i hi
  have hr : ∀ j, j < 8 → w.getLsbD (16 + j) = false := by
    intro j hj
    have := congrArg (fun v => BitVec.getLsbD v j) h
    simpa [rsvField, BitVec.getLsbD_extractLsb', hj] using this
  simp only [opcField, immField, makeWord, BitVec.getLsbD_or, atWord_getLsbD,
    BitVec.getLsbD_extractLsb']
  by_cases h1 : i < 16
  · simp [h1, show ¬ 24 ≤ i by omega, show i < 32 by omega]
  · by_cases h2 : i < 24
    · have := hr (i - 16) (by omega)
      rw [show 16 + (i - 16) = i by omega] at this
      simp [h1, show ¬ 24 ≤ i by omega, this]
    · simp [h1, show 24 ≤ i by omega, show i < 32 by omega, show i - 24 < 8 by omega,
        show 24 + (i - 24) = i by omega]

/-- Decoding a word made of an opcode of R76 and an immediate makes R78's checks of that command alone. -/
theorem decodeCommand_makeWord {o : Byte} (m : Half) (h : o.toNat ≤ 0x0A) :
    decodeCommand (makeWord o m) = selectCommand o m := by
  simp [decodeCommand, show ¬ 10 < o.toNat by omega]

theorem noOperand_ok {m : Half} {i j : Instr} : noOperand m i = .ok j ↔ m = 0#16 ∧ i = j := by
  by_cases h : m = 0#16 <;> simp [noOperand, h]

theorem sampleOperand_ok {m : Half} {j : Instr} :
    sampleOperand m = .ok j ↔
      m.extractLsb' 8 8 = 0#8 ∧ .maprow (m.extractLsb' 0 8) = j := by
  by_cases h : m.extractLsb' 8 8 = 0#8 <;> simp [sampleOperand, h]

/-- R72: a record's fields come back. -/
theorem decodeRecord_encodeRecord (r : CycleRecord) : decodeRecord (encodeRecord r) = .ok r := by
  obtain ⟨c, d, v, a, b⟩ := r
  have h0 : (encodeRecord ⟨c, d, v, a, b⟩).extractLsb' 43 21 = 0#21 := by
    apply BitVec.eq_of_getLsbD_eq
    intro i hi
    simp only [encodeRecord, BitVec.getLsbD_extractLsb', BitVec.getLsbD_or, atLong_getLsbD]
    rw [BitVec.getLsbD_of_ge c _ (by omega), BitVec.getLsbD_of_ge d _ (by omega),
      BitVec.getLsbD_of_ge (BitVec.ofBool v) _ (by omega),
      BitVec.getLsbD_of_ge (BitVec.ofBool a) _ (by omega),
      BitVec.getLsbD_of_ge (BitVec.ofBool b) _ (by omega)]
    simp
  have h1 : (encodeRecord ⟨c, d, v, a, b⟩).extractLsb' 0 32 = c := by
    apply BitVec.eq_of_getLsbD_eq
    intro i hi
    simp only [encodeRecord, BitVec.getLsbD_extractLsb', BitVec.getLsbD_or, atLong_getLsbD]
    simp [show i < 64 by omega, hi, show ¬ 32 ≤ i by omega, show ¬ 40 ≤ i by omega,
      show ¬ 41 ≤ i by omega, show ¬ 42 ≤ i by omega]
  have h2 : (encodeRecord ⟨c, d, v, a, b⟩).extractLsb' 32 8 = d := by
    apply BitVec.eq_of_getLsbD_eq
    intro i hi
    simp only [encodeRecord, BitVec.getLsbD_extractLsb', BitVec.getLsbD_or, atLong_getLsbD]
    rw [BitVec.getLsbD_of_ge c _ (by omega)]
    simp [show 32 + i < 64 by omega, hi, show ¬ 40 ≤ 32 + i by omega, show ¬ 41 ≤ 32 + i by omega,
      show ¬ 42 ≤ 32 + i by omega]
  have h3 : (encodeRecord ⟨c, d, v, a, b⟩).getLsbD 40 = v := by
    simp only [encodeRecord, BitVec.getLsbD_or, atLong_getLsbD]
    simp
  have h4 : (encodeRecord ⟨c, d, v, a, b⟩).getLsbD 41 = a := by
    simp only [encodeRecord, BitVec.getLsbD_or, atLong_getLsbD]
    simp
  have h5 : (encodeRecord ⟨c, d, v, a, b⟩).getLsbD 42 = b := by
    simp only [encodeRecord, BitVec.getLsbD_or, atLong_getLsbD]
    simp
  simp only [decodeRecord, h0, h1, h2, h3, h4, h5, if_true]

end Sys2Proof
end

