-- ==== Sys2Proof/Laws/PerInstr.lean ====
section
/-! SUPPORT. Every operation's encoding is one of its row's in spec/opcode_table.json: under the row's
`mask` it is the row's `match` (the edges' for the default polarity `Rising`). -/

namespace Sys2Proof.Laws.MatchesRow

/-- A row of spec/opcode_table.json. -/
inductive Row where
  /-- Format `CMD32`, with its `mask` and its `match`. -/
  | cmd32 (mask value : Word)
  /-- Format `CYC64`, with its `mask` and its `match`. -/
  | cyc64 (mask value : Long)
  deriving DecidableEq, Repr

/-- The rows, in the table's order. -/
def row : Instr → Row
  | .nop => .cmd32 0xFFFFFFFF#32 0x00000000#32
  | .cfgper _ => .cmd32 0xFFFF0000#32 0x01000000#32
  | .start => .cmd32 0xFFFFFFFF#32 0x02000000#32
  | .mask => .cmd32 0xFFFFFFFF#32 0x03000000#32
  | .unmask => .cmd32 0xFFFFFFFF#32 0x04000000#32
  | .clear => .cmd32 0xFFFFFFFF#32 0x05000000#32
  | .rdbuf _ => .cmd32 0xFFFF0000#32 0x06000000#32
  | .rdreg _ => .cmd32 0xFFFF0000#32 0x07000000#32
  | .maprow _ => .cmd32 0xFFFFFF00#32 0x08000000#32
  | .segment _ => .cmd32 0xFFFF0000#32 0x09000000#32
  | .hilite _ => .cmd32 0xFFFF0000#32 0x0A000000#32
  | .completion _ => .cyc64 0x0000010000000000#64 0x0000010000000000#64
  | .edgeA => .cyc64 0x0000020000000000#64 0x0000020000000000#64
  | .edgeB => .cyc64 0x0000040000000000#64 0x0000040000000000#64

/-- An encoding is of the row's format and agrees with it in every bit of its mask. -/
def Row.admits : Row → Encoding → Prop
  | .cmd32 m v, .cmd32 w => w &&& m = v
  | .cyc64 m v, .cyc64 w => w &&& m = v
  | .cmd32 _ _, .cyc64 _ => False
  | .cyc64 _ _, .cmd32 _ => False

/-- The encoding of `i` is one of the row of `i`. -/
def Statement (i : Instr) : Prop := (row i).admits (encode i)

/-- The bits above the immediate are the opcode's. -/
theorem makeWord_and_high (o : Byte) (m : Half) :
    makeWord o m &&& atWord 16 (BitVec.allOnes 16) = makeWord o 0#16 := by
  apply BitVec.eq_of_getLsbD_eq
  intro i hi
  simp only [makeWord, BitVec.getLsbD_and, BitVec.getLsbD_or, atWord_getLsbD, BitVec.getLsbD_allOnes]
  by_cases h : i < 16
  · simp [show ¬ 16 ≤ i by omega, show ¬ 24 ≤ i by omega]
  · simp [show 16 ≤ i by omega, hi, show i - 16 < 16 by omega]

/-- The bits above a sample operand are the opcode's. -/
theorem makeWord_and_sample (o d : Byte) :
    makeWord o (d.setWidth 16) &&& atWord 8 (BitVec.allOnes 24) = makeWord o 0#16 := by
  apply BitVec.eq_of_getLsbD_eq
  intro i hi
  simp only [makeWord, BitVec.getLsbD_and, BitVec.getLsbD_or, atWord_getLsbD, BitVec.getLsbD_allOnes,
    BitVec.getLsbD_setWidth]
  by_cases h : i < 8
  · simp [show ¬ 8 ≤ i by omega, show ¬ 24 ≤ i by omega]
  · simp [show 8 ≤ i by omega, hi, show i - 8 < 24 by omega]

theorem nop : Statement .nop := rfl
theorem cfgper (p : Half) : Statement (.cfgper p) := makeWord_and_high 0x01#8 p
theorem start : Statement .start := rfl
theorem mask : Statement .mask := rfl
theorem unmask : Statement .unmask := rfl
theorem clear : Statement .clear := rfl
theorem rdbuf (a : Half) : Statement (.rdbuf a) := makeWord_and_high 0x06#8 a
theorem rdreg (idx : Half) : Statement (.rdreg idx) := makeWord_and_high 0x07#8 idx
theorem maprow (d : Byte) : Statement (.maprow d) := makeWord_and_sample 0x08#8 d
theorem segment (k : Half) : Statement (.segment k) := makeWord_and_high 0x09#8 k
theorem hilite (r : Half) : Statement (.hilite r) := makeWord_and_high 0x0A#8 r

theorem completion (d : Byte) : Statement (.completion d) := by
  show encodeRecord _ &&& 0x0000010000000000#64 = 0x0000010000000000#64
  apply BitVec.eq_of_getLsbD_eq
  intro i hi
  rw [show (0x0000010000000000#64 : Long) = BitVec.twoPow 64 40 by decide, BitVec.getLsbD_and,
    BitVec.getLsbD_twoPow]
  by_cases e : 40 = i
  · subst e
    simp only [encodeRecord, eventRecord, BitVec.getLsbD_or, atLong_getLsbD]
    simp
  · simp [e]

theorem edgeA : Statement .edgeA := rfl
theorem edgeB : Statement .edgeB := rfl

end Sys2Proof.Laws.MatchesRow
end

