-- ==== Sys2Proof/Tests/Slice0.lean ====
section
/-! SUPPORT. Tests on fixed values: operands each check refuses, words written out from the spec's
encodings, the vectors of spec/95_test_vectors.md one cycle at a time, and for every obligation with
hypotheses a state and operands that meet them. Expected values are the spec's. -/

namespace Sys2Proof.Tests

open Sys2Proof.Machine Sys2Proof.Safety

/-! ## Helpers -/

/-- `s` with these records as the inputs of its next cycles, out of reset. -/
def withRecords (ws : List Long) (s : State) : State :=
  { s with inputs := ws.map fun w => { rstN := true, word := w } }

/-- Power-on in the reference configuration with these records to come. -/
def fresh (ws : List Long) : State := withRecords ws State.reset

/-- The state a result goes on with. -/
def settled : Result → Option State
  | .next t => some t
  | .fault _ => none
  | .refused _ => none

/-- The fault a result stops with. -/
def faultOf : Result → Option Fault
  | .next _ => none
  | .fault f => some f
  | .refused _ => none

/-- A store of these samples from cell 0 on, the cursor above them. -/
def filled (samples : List Byte) (s : State) : State :=
  samples.foldl (fun s d => setCursor (s.cursor + 1) (storeCell s.cursor d s)) s

/-- The first value a field has after one cycle. -/
def after {α : Type} (f : State → α) (s : State) : Option α := (settled (step s)).map f

/-- The record of a cycle with this command, no completion and both pins high. -/
def issued (w : Word) : CycleRecord :=
  { cmd := w, adcData := 0#8, adcValid := false, pinA := true, pinB := true }

/-- The reference configuration under `LatchOne`. -/
def latchConfig : Config := { Config.reference with maskedPolicy := .latchOne }

/-- The reference configuration with both pins active on the falling edge. -/
def fallingConfig : Config := { Config.reference with polA := .falling, polB := .falling }

/-- A clock that runs with period `p` and count `n`. -/
def ticking (p n : Half) (s : State) : State := setCount n (startClock (setPeriod p s))

/-- Five samples, `FULL`. -/
def fullStore : State := filled [1#8, 2#8, 3#8, 4#8, 5#8] State.reset

/-! ## WellFormed: an ill-formed operand for each check -/

theorem test_wellFormed_cfgper :
    (Instr.cfgper 0#16).wellFormed Config.reference = false
      ∧ (Instr.cfgper 1#16).wellFormed Config.reference = true := by decide

theorem test_wellFormed_rdbuf :
    (Instr.rdbuf 5#16).wellFormed Config.reference = false
      ∧ (Instr.rdbuf 4#16).wellFormed Config.reference = true := by decide

theorem test_wellFormed_rdreg :
    (Instr.rdreg 5#16).wellFormed Config.reference = false
      ∧ (Instr.rdreg 4#16).wellFormed Config.reference = true := by decide

theorem test_wellFormed_segment :
    (Instr.segment 3#16).wellFormed Config.reference = false
      ∧ (Instr.segment 2#16).wellFormed Config.reference = true := by decide

theorem test_wellFormed_hilite :
    (Instr.hilite 3#16).wellFormed Config.reference = false
      ∧ (Instr.hilite 2#16).wellFormed Config.reference = true := by decide

/-- One illegal value for each line of R9 and R7. -/
theorem test_legalConfig_checks :
    legalConfig Config.reference = true
      ∧ legalConfig { Config.reference with width := 1 } = false
      ∧ legalConfig { Config.reference with width := 65536 } = false
      ∧ legalConfig { Config.reference with nItems := 0 } = false
      ∧ legalConfig { Config.reference with nItems := 33 } = false
      ∧ legalConfig { Config.reference with plotBottom := 126 } = false
      ∧ legalConfig { Config.reference with plotBottom := 65536 } = false
      ∧ legalConfig { Config.reference with plotTop := 74 } = false
      ∧ legalConfig { Config.reference with rangeReset := 0b1000#32 } = false
      ∧ legalConfig { Config.reference with rangeReset := 0b011#32 } = false
      ∧ legalConfig { Config.reference with convLat := 0 } = false
      ∧ legalConfig { Config.reference with convLat := 65536 } = false := by decide

/-! ## Decoding: words written out from R72, R75, R76, R82 -/

theorem test_decode_bare_commands :
    decode (.cmd32 0x00000000#32) = .ok .nop ∧ decode (.cmd32 0x02000000#32) = .ok .start
      ∧ decode (.cmd32 0x03000000#32) = .ok .mask ∧ decode (.cmd32 0x04000000#32) = .ok .unmask
      ∧ decode (.cmd32 0x05000000#32) = .ok .clear := ⟨rfl, rfl, rfl, rfl, rfl⟩

theorem test_decode_immediate_commands :
    decode (.cmd32 0x0100ABCD#32) = .ok (.cfgper 0xABCD#16)
      ∧ decode (.cmd32 0x06008001#32) = .ok (.rdbuf 0x8001#16)
      ∧ decode (.cmd32 0x07000003#32) = .ok (.rdreg 3#16)
      ∧ decode (.cmd32 0x080000C5#32) = .ok (.maprow 0xC5#8)
      ∧ decode (.cmd32 0x0900007E#32) = .ok (.segment 126#16)
      ∧ decode (.cmd32 0x0A000002#32) = .ok (.hilite 2#16) := ⟨rfl, rfl, rfl, rfl, rfl, rfl⟩

theorem test_decode_events :
    decode (.cyc64 0x0000015A00000000#64) = .ok (.completion 0x5A#8)
      ∧ decode (.cyc64 0x0000020000000000#64) = .ok .edgeA
      ∧ decode (.cyc64 0x0000040000000000#64) = .ok .edgeB := ⟨rfl, rfl, rfl⟩

/-- V-F1, V-F2, V-F3, V-F4, V-F5, V-B14, V-M3, V-K11. -/
theorem test_decode_rejects :
    decodeCommand 0x0B000000#32 = .error .opcode ∧ decodeCommand 0xFF010000#32 = .error .opcode
      ∧ decodeCommand 0x00010000#32 = .error .rsvBits ∧ decodeCommand 0x00000001#32 = .error .rsvBits
      ∧ decodeCommand 0x02000001#32 = .error .rsvBits ∧ decodeCommand 0x03000001#32 = .error .rsvBits
      ∧ decodeCommand 0x08000100#32 = .error .rsvBits ∧ decodeCommand 0x01010000#32 = .error .rsvBits :=
  ⟨rfl, rfl, rfl, rfl, rfl, rfl, rfl, rfl⟩

/-- R72's fields, each at a value of its own (P1's cycle 6, pin A low). -/
theorem test_decode_record :
    decodeRecord 0x0000051103000000#64
      = .ok { cmd := 0x03000000#32, adcData := 0x11#8, adcValid := true, pinA := false, pinB := true } :=
  rfl

/-- R51: the bytes of `0x01000004` in both orders. -/
theorem test_word_bytes :
    wordBytes .little 0x01000004#32 = [4#8, 0#8, 0#8, 1#8]
      ∧ wordBytes .big 0x01000004#32 = [1#8, 0#8, 0#8, 4#8]
      ∧ decodeBytes .big [1#8, 0#8, 0#8, 4#8, 9#8] = .ok (.cfgper 4#16, [9#8]) := ⟨rfl, rfl, rfl⟩

theorem test_decodeTableWord :
    decodeTableWord 32 0x06000000 = some (.rdbuf 0#16) ∧ decodeTableWord 32 0x0B000000 = none
      ∧ decodeTableWord 48 0x010000000000 = some (.completion 0#8)
      ∧ decodeTableWord 48 0x020000000000 = some .edgeA
      ∧ decodeTableWord 48 0x040000000000 = some .edgeB := by decide

/-! ## The stimulus language (R84, R85), on the lines of spec/95's programs -/

/-- P1's cycle 6, and P2's cycle 0. -/
theorem test_stimulus_lines :
    (parseLine ['M', 'A', 'S', 'K', ' ', '@', 'A', 'D', 'C', ' ', '0', 'x', '1', '1']).map assemble
        = some [{ rstN := true, word := 0x0000071103000000#64 }]
      ∧ (parseLine ['@', 'B', '=', '0', ' ', ';', ' ', 'M', 'e', 'n', 'u']).map assemble
        = some [{ rstN := true, word := 0x0000020000000000#64 }] := by decide

/-- `PRESS A` is two lines, `POLLFULL` one; an event clause given twice is rejected. -/
theorem test_stimulus_pseudo :
    (parseProgram [['P', 'R', 'E', 'S', 'S', ' ', 'A'], ['P', 'O', 'L', 'L', 'F', 'U', 'L', 'L']]).map
        assemble
        = some [{ rstN := true, word := 0x0000040000000000#64 },
                { rstN := true, word := 0x0000060000000000#64 },
                { rstN := true, word := 0x0000060007000000#64 }]
      ∧ parseLine ['@', 'A', '=', '0', ' ', '@', 'A', '=', '1'] = none
      ∧ parseLine ['W', 'A', 'I', 'T', ' ', '0', 'x'] = none := by decide

/-- P3's cycles 0 and 1; P1's cycles 6 (without its completion), 7, 11 and 12, for `WIDTH = 2`. -/
theorem test_host_programs :
    (assemble (hostBoot 4#16)).map CycleInput.word = [0x0000060001000004#64, 0x0000060002000000#64]
      ∧ (assemble (hostFrame 2 0)).map CycleInput.word
        = [0x0000060003000000#64, 0x0000060009000000#64, 0x0000060005000000#64, 0x0000060004000000#64]
      ∧ (assemble (menuLines 2 1)).map CycleInput.word = [0x000006000A000002#64] := by decide

/-! ## The vectors of spec/95, one cycle each -/

/-- V-C1. -/
theorem test_nop_v_c1 :
    after (fun t => (t.out.resp, t.out.trig, t.cursor, t.selector, t.cycle)) (fresh [0x0000060000000000#64])
      = some (0#64, false, 0, 0, 1) := by decide

/-- V-K8. -/
theorem test_cfgper_v_k8 :
    after (fun t => (t.period, t.running)) (fresh [0x000006000100FFFF#64]) = some (65535#16, false) := by
  decide

/-- V-K4. -/
theorem test_cfgper_v_k4 :
    faultOf (step (fresh [0x0000060001000000#64])) = some (.periodZero 0 0x01000000#32) := by decide

/-- V-K3. -/
theorem test_start_v_k3 :
    faultOf (step (fresh [0x0000060002000000#64])) = some (.notConfigured 0 0x02000000#32) := by decide

/-- V-K5. -/
theorem test_start_v_k5 :
    after (fun t => (t.count, t.out.trig)) (ticking 3#16 1#16 (fresh [0x0000060002000000#64]))
      = some (2#16, false) := by decide

/-- V-K6, cycle 19. -/
theorem test_period_change_v_k6 :
    after (fun t => (t.count, t.out.trig, t.period)) (ticking 10#16 7#16 (fresh [0x0000060001000004#64]))
      = some (0#16, true, 4#16) := by decide

/-- V-B8. -/
theorem test_mask_v_b8 :
    after (fun t => (t.masked, t.cursor)) (setCursor 2 (fresh [0x0000071103000000#64])) = some (true, 2) := by
  decide

/-- V-B9. -/
theorem test_unmask_v_b9 :
    after (fun t => (t.masked, t.cursor, readMemory t.buf 0))
      (setMasked true (fresh [0x0000078004000000#64])) = some (false, 1, some 0x80#8) := by decide

/-- V-B11, cycle 2: what is held is appended. -/
theorem test_unmask_v_b11 :
    after (fun t => (t.pendV, t.cursor, readMemory t.buf 0))
      (latchPend 0x22#8 (setMasked true (State.powerOn latchConfig 0
        [{ rstN := true, word := 0x0000060004000000#64 }])))
      = some (false, 1, some 0x22#8) := by decide

/-- V-B6. -/
theorem test_clear_v_b6 :
    after (fun t => (t.cursor, readMemory t.buf 0, readMemory t.buf 1))
      (withRecords [0x0000079905000000#64] fullStore) = some (1, some 0x99#8, some 2#8) := by decide

/-- V-B7. -/
theorem test_rdbuf_v_b7 :
    after (fun t => (t.out.resp, readMemory t.buf 1, t.cursor))
      (withRecords [0x0000077706000001#64] (setCursor 1 fullStore))
      = some (2#64, some 0x77#8, 2) := by decide

/-- V-B13. -/
theorem test_rdbuf_v_b13 :
    faultOf (step (fresh [0x0000060006000005#64])) = some (.bufAddr 0 0x06000005#32) := by decide

/-- V-C5. -/
theorem test_rdreg_v_c5 :
    after (fun t => t.out.resp)
      (setView .menu (setMasked true (setCursor 5 (fresh [0x0000060007000000#64])))) = some 0xB#64 := by
  decide

/-- V-F6. -/
theorem test_rdreg_v_f6 :
    faultOf (step (fresh [0x0000060007000005#64])) = some (.regIndex 0 0x07000005#32) := by decide

/-- V-M1, samples 255 and 3. -/
theorem test_maprow_v_m1 :
    after (fun t => t.out.resp) (fresh [0x00000600080000FF#64]) = some 73#64
      ∧ after (fun t => t.out.resp) (fresh [0x0000060008000003#64]) = some 199#64 := by decide

/-- V-M5. -/
theorem test_segment_v_m5 :
    after (fun t => t.out.resp)
      (withRecords [0x0000060009000002#64] (filled [0x00#8, 0x40#8, 0x80#8, 0xC0#8] State.reset))
      = some 0x0068008800030002#64 := by decide

/-- V-M6. -/
theorem test_segment_v_m6 :
    faultOf (step (fresh [0x0000060009000003#64])) = some (.segIndex 0 0x09000003#32) := by decide

/-- V-R1, rows 1 and 2. -/
theorem test_hilite_v_r1 :
    after (fun t => t.out.resp) (setSelector 2 (fresh [0x000006000A000001#64])) = some 1#64
      ∧ after (fun t => t.out.resp) (setSelector 2 (fresh [0x000006000A000002#64])) = some 0#64 := by decide

/-- V-R3. -/
theorem test_hilite_v_r3 :
    faultOf (step (fresh [0x000006000A000003#64])) = some (.rowIndex 0 0x0A000003#32) := by decide

/-- V-B2, V-B3: the last cell, and a full store. -/
theorem test_completion_v_b2_b3 :
    after (fun t => (t.cursor, readMemory t.buf 4))
        (withRecords [0x0000073200000000#64] (filled [10#8, 20#8, 30#8, 40#8] State.reset))
      = some (5, some 50#8)
      ∧ after (fun t => (t.cursor, readMemory t.buf 4)) (withRecords [0x0000073C00000000#64] fullStore)
        = some (5, some 5#8) := by decide

/-- V-B11, cycle 1. -/
theorem test_completion_v_b11 :
    after (fun t => (t.pendV, t.pendD, t.cursor))
      (latchPend 0x11#8 (setMasked true (State.powerOn latchConfig 0
        [{ rstN := true, word := 0x0000072200000000#64 }])))
      = some (true, 0x22#8, 0) := by decide

/-- V-I5, the second line of `PRESS A`: the wrap. -/
theorem test_edgeA_v_i5 :
    after (fun t => (t.selector, t.range, t.out.rangeOut))
      (setRange 4#32 (setSelector 3 (samplePins false true (fresh [0x0000060000000000#64]))))
      = some (1, 1#32, 4#32) := by decide

/-- V-I2, V-I3: falling fires on the first low level, rising not on a level that stays. -/
theorem test_edgeA_v_i2_i3 :
    after (fun t => t.selector)
        (State.powerOn fallingConfig 0 [{ rstN := true, word := 0x0000040000000000#64 }]) = some 1
      ∧ after (fun t => t.selector) (fresh [0x0000060000000000#64]) = some 0 := by decide

/-- V-I9, cycle 1: both events. -/
theorem test_edgeB_v_i9 :
    after (fun t => (t.selector, t.view, t.range)) (samplePins false false (fresh [0x0000060000000000#64]))
      = some (1, .menu, 1#32) := by decide

/-- V-R4: `SELECTOR = 0` keeps `RANGE_RESET`. -/
theorem test_edgeB_v_r4 :
    after (fun t => (t.view, t.range))
      (samplePins true false (State.powerOn { Config.reference with rangeReset := 4#32 } 0
        [{ rstN := true, word := 0x0000060000000000#64 }])) = some (.menu, 4#32) := by decide

/-- V-F8, and P5's cycle 1. -/
theorem test_stops_v_f8_p5 :
    step (fresh [0x0000080000000000#64]) = .refused .notARecord
      ∧ faultOf (step (nextCycle (fresh [0x000006000C000000#64]))) = some (.opcode 1 0x0C000000#32) :=
  ⟨rfl, by decide⟩

/-- R270: a reset cycle, with an event and a command on the inputs. -/
theorem test_reset_cycle :
    after (fun t => (t.cursor, t.masked, t.prevA, readMemory t.buf 0, t.cycle))
      { fullStore with inputs := [{ rstN := false, word := 0x0000017703000000#64 }] }
      = some (0, false, true, none, 0) := by decide

/-! ## Placing a table row's bits -/

theorem test_withFetchWord_command :
    after (fun t => (t.period, t.selector, t.cursor)) (State.reset.withFetchWord 32 0x01000004)
      = some (4#16, 0, 0) := by decide

theorem test_withFetchWord_event :
    after (fun t => (t.selector, t.view, t.cursor)) (State.reset.withFetchWord 48 0x020000000000)
        = some (1, .scope, 0)
      ∧ after (fun t => (t.selector, t.view, t.cursor)) (State.reset.withFetchWord 48 0x040000000000)
        = some (0, .menu, 0)
      ∧ after (fun t => (t.selector, t.view, t.cursor)) (State.reset.withFetchWord 48 0x010000000000)
        = some (0, .scope, 1) := by decide

/-! ## The environment's contracts -/

/-- P3's (`TRIG`, `ADC_VALID`) pairs, cycles 5 to 16, with `CONV_LAT = 2`; and one completion too many. -/
theorem test_converter_p3 :
    converterKeeps 2 0 [(true, false), (false, false), (false, true), (false, false), (true, false),
        (false, false), (false, true), (false, false), (true, false), (false, false), (false, true),
        (false, false)] = true
      ∧ converterKeeps 2 0 [(true, false), (false, true)] = false := by decide

/-- R250's frame keeps R253's duties; UNMASK before CLEAR does not. -/
theorem test_host_frame :
    hostKeeps .accumulating [.rdreg 0#16, .mask, .segment 0#16, .segment 1#16, .clear, .unmask] = true
      ∧ hostKeeps .accumulating [.mask, .segment 0#16, .unmask] = false
      ∧ marginMet { State.reset with period := 3#16 } := by
  exact ⟨by decide, by decide, by unfold marginMet; decide⟩

/-! ## States and operands that meet the hypotheses of each obligation -/

/-- A field of the state a result goes on with, read back as an equation about the result. -/
theorem next_of_settled {α : Type} {o : Result} {f : State → α} {v : α} (h : (settled o).map f = some v) :
    ∃ t, o = .next t ∧ f t = v := by
  cases o with
  | next t => exact ⟨t, rfl, by simpa [settled] using h⟩
  | fault r => simp [settled] at h
  | refused r => simp [settled] at h

/-- A cycle whose first listed record decodes, in the reference configuration or another legal one. -/
theorem runs_of {s : State} {w : Long} {ws : List Long} {r : CycleRecord} (hf : s.fault = none)
    (hl : legalConfig s.cfg = true) (hd : decodeRecord w = .ok r) : Runs (withRecords (w :: ws) s) r :=
  ⟨hf, hl, rfl, hd⟩

/-- A running clock, a selected item, a full store: every clause of R42 at its bound. -/
def busy : State := setRange 4#32 (setSelector 3 (ticking 3#16 2#16 fullStore))

theorem busy_inv : Inv busy where
  cursor_le := by decide
  selector_le := by decide
  range_onehot := by decide
  range_selected := by decide
  clock_legal := by decide

theorem test_witness_CommandWordHasOneSpelling :
    decodeCommand 0x0100ABCD#32 = .ok (.cfgper 0xABCD#16) := rfl

theorem test_witness_CommandCheckOrder :
    decodeCommand 0x0BFFFFFF#32 = .error .opcode ∧ decodeCommand 0x0A010000#32 = .error .rsvBits
      ∧ decodeCommand 0x05008000#32 = .error .rsvBits ∧ decodeCommand 0x08008000#32 = .error .rsvBits
      ∧ decodeCommand 0x0A00FFFF#32 = .ok (.hilite 0xFFFF#16) := ⟨rfl, rfl, rfl, rfl, rfl⟩

theorem test_witness_RecordRoundTrip :
    decodeRecord 0x000007FFFFFFFFFF#64
        = .ok { cmd := 0xFFFFFFFF#32, adcData := 0xFF#8, adcValid := true, pinA := true, pinB := true }
      ∧ decodeRecord 0x8000000000000000#64 = .error .highBits
      ∧ decodeRecord 0x0000080000000000#64 = .error .highBits := ⟨rfl, rfl, rfl⟩

theorem test_witness_BusBytesRoundTrip :
    decodeCommand 0x0A000001#32 = .ok (.hilite 1#16) ∧ decodeCommand 0x0B000000#32 = .error .opcode :=
  ⟨rfl, rfl⟩

theorem test_witness_StimulusAssembles :
    ∃ x y, (assemble pressA)[0]? = some x ∧ (assemble pressA)[0 + 1]? = some y
      ∧ pressA[0]? = some { quietLine with pinA := some false }
      ∧ pressA[0 + 1]? = some { quietLine with pinA := some true } ∧ x ∈ assemble pressA :=
  ⟨_, _, rfl, rfl, rfl, rfl, List.mem_cons_self⟩

theorem test_witness_StepRunsDecodedInstruction :
    Issues (fresh [0x0000060001000004#64]) (issued 0x01000004#32) (.cfgper 4#16) :=
  ⟨runs_of rfl (by decide) rfl, rfl⟩

theorem test_witness_UnlistedCycleIsFree :
    State.reset.fault = none ∧ legalConfig State.reset.cfg = true ∧ State.reset.inputs = [] := by decide

theorem test_witness_PlacedWordRuns :
    State.reset.fault = none ∧ legalConfig State.reset.cfg = true
      ∧ decodeTableWord 32 0x0A000001 = some (.hilite 1#16)
      ∧ decodeTableWord 64 0x020000000000 = some .edgeA ∧ Instr.edgeA.isCommand = false
      ∧ State.reset.cfg.polA = .rising ∧ State.reset.cfg.polB = .rising := by decide

theorem test_witness_ReservedOpcodeFaults :
    Runs (fresh [0x000006000B000000#64]) (issued 0x0B000000#32)
      ∧ 0x0B ≤ ((issued 0x0B000000#32).cmd.extractLsb' 24 8).toNat
      ∧ Runs (fresh [0x00000600FF000000#64]) (issued 0xFF000000#32)
      ∧ 0x0B ≤ ((issued 0xFF000000#32).cmd.extractLsb' 24 8).toNat :=
  ⟨runs_of rfl (by decide) rfl, by decide, runs_of rfl (by decide) rfl, by decide⟩

/-- P5. -/
theorem test_witness_FaultStopsForGood :
    (recordFault (.opcode 1 0x0C000000#32) State.reset).fault = some (.opcode 1 0x0C000000#32)
      ∧ (fresh [0x000006000B000000#64]).fault = none
      ∧ step (fresh [0x000006000B000000#64]) = .fault (.opcode 0 0x0B000000#32) :=
  ⟨rfl, rfl, rfl⟩

theorem test_witness_UnusableInputsRefused :
    legalConfig (State.powerOn { Config.reference with width := 1 } 0 []).cfg = false
      ∧ legalConfig (fresh [0x0000080000000000#64]).cfg = true
      ∧ (nextInput (fresh [0x0000080000000000#64])).word.extractLsb' 43 21 ≠ 0#21
      ∧ (nextInput (fresh [0x8000000000000000#64])).word.extractLsb' 43 21 ≠ 0#21 := by decide

theorem test_witness_ResetForcesPowerOn :
    InReset { busy with inputs := [{ rstN := false, word := 0x0000010005000000#64 }] } :=
  ⟨rfl, by decide, rfl, _, rfl⟩

theorem test_witness_InvariantsAtPowerOn :
    legalConfig { Config.reference with width := 65535, nItems := 32, rangeReset := 0x80000000#32 } = true
      ∧ legalConfig { Config.reference with width := 2, nItems := 1, plotBottom := 127 } = true := by decide

theorem test_witness_StepKeepsRegisterInvariant : Inv busy ∧ (∃ t, step (withRecords [0#64] busy) = .next t) :=
  ⟨busy_inv, let ⟨t, h, _⟩ := next_of_settled (f := State.cycle) (v := 1) (by decide); ⟨t, h⟩⟩

theorem test_witness_StepKeepsStoreInvariant :
    StoreInv State.reset ∧ ∃ t, step (fresh [0x0000015A00000000#64]) = .next t ∧ t.cursor = 1 :=
  ⟨⟨rfl, fun _ _ => rfl, fun _ h => absurd h (by decide +revert), fun _ => rfl⟩,
    next_of_settled (by decide)⟩

/-- A selected item and a running clock, two cycles after power-on. -/
theorem test_witness_RunsMeetStateInvariants :
    legalConfig Config.reference = true ∧ ∃ t, run 3 (State.powerOn Config.reference 0
      [{ rstN := true, word := 0x0000040001000003#64 }, { rstN := true, word := 0x0000060002000000#64 },
        { rstN := true, word := 0x0000060000000000#64 }]) = .next t
      ∧ (t.selector, t.running, t.count) = (1, true, 1#16) :=
  ⟨by decide, next_of_settled (by decide)⟩

theorem test_witness_FullIsOneAboveWidth : Inv busy ∧ full busy = true ∧ full State.reset = false :=
  ⟨busy_inv, by decide, by decide⟩

theorem test_witness_CfgperSetsPeriod : (1#16 : Half) ≠ 0#16 ∧ (0xFFFF#16 : Half) ≠ 0#16 := by decide

theorem test_witness_StartStartsClock :
    busy.running = true ∧ State.reset.running = false ∧ State.reset.period = 0#16
      ∧ (setPeriod 1#16 State.reset).running = false ∧ (setPeriod 1#16 State.reset).period ≠ 0#16 := by
  decide

theorem test_witness_RdbufReadsCell :
    (4#16 : Half).toNat ≤ State.reset.cfg.width ∧ State.reset.cfg.width < (5#16 : Half).toNat := by decide

theorem test_witness_RdregReadsRegisters :
    (setCursor 65536 State.reset).cursor ≤ 65536 ∧ (setSelector 32 State.reset).selector ≤ 32
      ∧ 4 < (5#16 : Half).toNat := by decide

theorem test_witness_MaprowGivesRow : legalConfig State.reset.cfg = true := by decide

theorem test_witness_SegmentPacksLine :
    legalConfig State.reset.cfg = true ∧ (2#16 : Half).toNat + 2 ≤ State.reset.cfg.width
      ∧ State.reset.cfg.width < (3#16 : Half).toNat + 2 := by decide

theorem test_witness_HiliteAnswersSelectedRow :
    (2#16 : Half).toNat < State.reset.cfg.nItems ∧ State.reset.cfg.nItems ≤ (3#16 : Half).toNat := by decide

theorem test_witness_CompletionUnderDrop :
    State.reset.cfg.maskedPolicy = .drop ∧ (setMasked true State.reset).masked = true
      ∧ fullStore.cfg.width < fullStore.cursor ∧ (setCursor 4 State.reset).masked = false
      ∧ (setCursor 4 State.reset).cursor ≤ (setCursor 4 State.reset).cfg.width := by decide

/-- Masked; full; the last cell; nothing held; and a held sample, unmasked. -/
theorem test_witness_CompletionUnderLatchOne :
    (let s := State.powerOn latchConfig 0 []
     s.cfg.maskedPolicy = .latchOne ∧ (setMasked true s).masked = true ∧ s.masked = false
      ∧ (setCursor 5 s).cfg.width < (setCursor 5 s).cursor ∧ (setCursor 4 s).cursor ≤ s.cfg.width
      ∧ s.pendV = false ∧ (latchPend 7#8 s).pendV = true)
      ∧ ∃ t, exec (.completion 7#8) (latchPend 7#8 (State.powerOn latchConfig 0 [])) = .next t
        ∧ t.cursor = 1 :=
  ⟨by decide, next_of_settled (by decide)⟩

theorem test_witness_ReadsHaveNoSideEffect :
    (isRead (.rdreg 1#16) = true ∧ ∃ t, exec (.rdreg 1#16) busy = .next t ∧ t.out.resp = 5#64)
      ∧ (∃ t, exec (.completion 9#8) (setCursor 4 State.reset) = .next t ∧ t.cursor = 5)
      ∧ (∃ t, exec .clear busy = .next t ∧ t.cursor = 0) :=
  ⟨⟨rfl, next_of_settled (by decide)⟩, next_of_settled (by decide), next_of_settled (by decide)⟩

/-- RDREG 1 in two cycles one after the other, without event, in a state of both invariants. -/
theorem test_witness_ReadsHaveNoSideEffect_repeated :
    let s := fresh [0x0000060007000001#64, 0x0000060007000001#64]
    let r := issued 0x07000001#32
    Inv s ∧ StoreInv s ∧ Issues s r (.rdreg 1#16) ∧ r.adcValid = false ∧ r.pinA = s.prevA
      ∧ r.pinB = s.prevB ∧ ∃ t, step s = .next t ∧ Issues t r (.rdreg 1#16) := by
  refine ⟨⟨by decide, by decide, by decide, by decide, by decide⟩,
    ⟨rfl, fun _ _ => rfl, fun _ h => absurd h (Nat.not_lt_zero _), fun _ => rfl⟩,
    ⟨runs_of rfl (by decide) rfl, rfl⟩, rfl, rfl, rfl, ?_⟩
  obtain ⟨t, ht, h⟩ := next_of_settled (o := step (fresh [0x0000060007000001#64, 0x0000060007000001#64]))
    (f := fun t => (t.fault, legalConfig t.cfg, nextInput t))
    (v := (none, true, { rstN := true, word := 0x0000060007000001#64 })) (by decide)
  simp only [Prod.mk.injEq] at h
  exact ⟨t, ht, ⟨h.1, h.2.1, by rw [h.2.2], by rw [h.2.2]; rfl⟩, rfl⟩

theorem test_witness_OperationsCompleteWhenLegal :
    legalCommand busy (.segment 2#16) = true ∧ legalCommand busy (.segment 3#16) = false
      ∧ legalCommand State.reset .start = false ∧ legalCommand busy .start = true
      ∧ Instr.edgeB.isCommand = false := by decide

/-- V-F1, V-K10, V-K4: one cycle for each kind of fault a cycle raises. -/
theorem test_witness_FaultsRecordTheirCommand_cycle :
    (Runs (fresh [0x000006000B000000#64]) (issued 0x0B000000#32)
      ∧ decodeCommand 0x0B000000#32 = .error .opcode
      ∧ step (fresh [0x000006000B000000#64]) = .fault (.opcode 0 0x0B000000#32))
    ∧ (Runs (nextCycle (fresh [0x0000060001010003#64])) (issued 0x01010003#32)
      ∧ decodeCommand 0x01010003#32 = .error .rsvBits
      ∧ step (nextCycle (fresh [0x0000060001010003#64])) = .fault (.rsvBits 1 0x01010003#32))
    ∧ (Runs (fresh [0x0000060001000000#64]) (issued 0x01000000#32)
      ∧ decodeCommand 0x01000000#32 = .ok (.cfgper 0#16)
      ∧ exec (.cfgper 0#16) (fresh [0x0000060001000000#64]) = .fault (.periodZero 0 0x01000000#32)) :=
  ⟨⟨runs_of rfl (by decide) rfl, rfl, rfl⟩, ⟨⟨rfl, by decide, rfl, rfl⟩, rfl, rfl⟩,
    runs_of rfl (by decide) rfl, rfl, rfl⟩

/-- R232's numbers of the two codes that decoding raises. -/
theorem test_fault_codes_of_decoding :
    faultCode (commandFault .opcode 7 0x0B000000#32) = 1
      ∧ faultCode (commandFault .rsvBits 7 0x00010000#32) = 2
      ∧ faultCycle (commandFault .rsvBits 7 0x00010000#32) = 7
      ∧ faultWord (commandFault .rsvBits 7 0x00010000#32) = 0x00010000#32 := by decide

theorem test_witness_FaultsRecordTheirCommand :
    exec .start State.reset = .fault (.notConfigured 0 0x02000000#32)
      ∧ exec (.rdbuf 5#16) State.reset = .fault (.bufAddr 0 0x06000005#32) := ⟨rfl, rfl⟩

theorem test_witness_EachFieldHasItsWriters :
    ∃ t, exec .edgeB State.reset = .next t ∧ t.view = .menu := next_of_settled (by decide)

theorem test_witness_CycleStopsOnlyOnItsCommand :
    Runs (fresh [0x0000060007000004#64]) (issued 0x07000004#32)
      ∧ legalCommand (fresh []) (.rdreg 4#16) = true ∧ legalCommand (fresh []) (.rdreg 5#16) = false :=
  ⟨runs_of rfl (by decide) rfl, by decide, by decide⟩

theorem test_witness_HiddenStateIsUnreadable :
    SameVisible State.reset (setCount 3#16 (samplePins false false (latchPend 7#8 State.reset)))
      ∧ Instr.isCommand (.rdreg 0#16) = true
      ∧ (∃ t, exec (.rdreg 0#16) State.reset = .next t ∧ t.out.resp = 0#64)
      ∧ (∃ t, exec (.rdreg 0#16) (setCount 3#16 (samplePins false false (latchPend 7#8 State.reset)))
          = .next t ∧ t.out.resp = 0#64) :=
  ⟨⟨fun _ => rfl, ⟨rfl, rfl⟩, rfl, rfl, ⟨rfl, rfl⟩, rfl, rfl⟩, rfl, next_of_settled (by decide),
    next_of_settled (by decide)⟩

theorem test_witness_OutputsOfACycle :
    Issues (withRecords [0x0000060003000000#64] busy) (issued 0x03000000#32) .mask
      ∧ answersNothing .mask = true
      ∧ (∃ w, exec .mask (popInput (withRecords [0x0000060003000000#64] busy)) = .next w ∧ w.masked = true)
      ∧ ∃ t, step (withRecords [0x0000060003000000#64] busy) = .next t ∧ t.out.trig = true :=
  ⟨⟨runs_of rfl (by decide) rfl, rfl⟩, rfl, next_of_settled (by decide), next_of_settled (by decide)⟩

/-- Stopped; on the last count; one before it. -/
theorem test_witness_CounterStepsEachCycle :
    (∃ t, step (fresh [0x0000060000000000#64]) = .next t ∧ (t.out.trig, t.running) = (false, false))
      ∧ (∃ t, step (withRecords [0x0000060000000000#64] (ticking 3#16 2#16 State.reset)) = .next t
        ∧ (t.out.trig, t.count, t.period) = (true, 0#16, 3#16))
      ∧ (∃ t, step (withRecords [0x0000060000000000#64] (ticking 3#16 1#16 State.reset)) = .next t
        ∧ (t.out.trig, t.count, t.period) = (false, 2#16, 3#16)) :=
  ⟨next_of_settled (by decide), next_of_settled (by decide), next_of_settled (by decide)⟩

/-- START with `PERIOD = 2`; the trigger two cycles later. -/
theorem test_witness_TriggerSchedule :
    let s := withRecords [0x0000060002000000#64, 0#64, 0#64] (setPeriod 2#16 State.reset)
    Issues s (issued 0x02000000#32) .start ∧ s.running = false ∧ 2 < s.inputs.length
      ∧ (∀ x ∈ s.inputs.take (2 + 1), keepsPeriod 2#16 x = true)
      ∧ ∃ t, run (2 + 1) s = .next t ∧ t.out.trig = true :=
  ⟨⟨runs_of rfl (by decide) rfl, rfl⟩, rfl, by decide, by decide, next_of_settled (by decide)⟩

/-- V-K6's cycle 19, and V-K7's with `COUNT = 2`. -/
theorem test_witness_PeriodChangeSchedule :
    (let s := withRecords [0x0000060001000004#64] (ticking 10#16 7#16 State.reset)
     Issues s (issued 0x01000004#32) (.cfgper 4#16) ∧ s.running = true ∧ 0 < s.inputs.length
      ∧ (∀ x ∈ (s.inputs.take (0 + 1)).tail, keepsPeriod 4#16 x = true) ∧ (4#16 : Half).toNat ≤ s.count.toNat + 1
      ∧ ∃ t, run (0 + 1) s = .next t ∧ t.out.trig = true)
    ∧ (let s := withRecords [0x0000060001000004#64, 0#64] (ticking 10#16 2#16 State.reset)
     Issues s (issued 0x01000004#32) (.cfgper 4#16) ∧ s.running = true ∧ 1 < s.inputs.length
      ∧ (∀ x ∈ (s.inputs.take (1 + 1)).tail, keepsPeriod 4#16 x = true) ∧ s.count.toNat + 1 < (4#16 : Half).toNat
      ∧ ∃ t, run (1 + 1) s = .next t ∧ t.out.trig = true) :=
  ⟨⟨⟨runs_of rfl (by decide) rfl, rfl⟩, rfl, by decide, by decide, by decide, next_of_settled (by decide)⟩,
    ⟨⟨runs_of rfl (by decide) rfl, rfl⟩, rfl, by decide, by decide, by decide,
      next_of_settled (by decide)⟩⟩

theorem test_witness_RunningIsNeverCleared :
    (∃ t, exec .start (setPeriod 1#16 State.reset) = .next t ∧ t.running = true)
      ∧ busy.running = true ∧ (nextInput (withRecords [0#64] busy)).rstN = true
      ∧ (∃ t, step (withRecords [0#64] busy) = .next t ∧ t.running = true)
      ∧ (∃ t, exec .nop busy = .next t ∧ t.running = true) :=
  ⟨next_of_settled (by decide), rfl, rfl, next_of_settled (by decide), next_of_settled (by decide)⟩

/-- A completion on a full store; V-B3. -/
theorem test_witness_FullStoreIsStable :
    Runs (withRecords [0x0000073C00000000#64] fullStore) { issued 0#32 with adcData := 60#8, adcValid := true }
      ∧ full (withRecords [0x0000073C00000000#64] fullStore) = true
      ∧ (∃ t, step (withRecords [0x0000073C00000000#64] fullStore) = .next t ∧ t.cursor = 5) :=
  ⟨runs_of rfl (by decide) rfl, by decide, next_of_settled (by decide)⟩

/-- A completion in the cycle of a MASK; a CLEAR while masked. -/
theorem test_witness_MaskHoldsTheStore :
    (Runs (fresh [0x0000071103000000#64])
        { issued 0x03000000#32 with adcData := 0x11#8, adcValid := true }
      ∧ ∃ t, step (fresh [0x0000071103000000#64]) = .next t ∧ t.cursor = 0)
    ∧ (Runs (withRecords [0x0000060005000000#64] (setMasked true fullStore)) (issued 0x05000000#32)
      ∧ (setMasked true fullStore).masked = true
      ∧ ∃ t, step (withRecords [0x0000060005000000#64] (setMasked true fullStore)) = .next t
        ∧ t.cursor = 0) :=
  ⟨⟨runs_of rfl (by decide) rfl, next_of_settled (by decide)⟩, runs_of rfl (by decide) rfl, rfl,
    next_of_settled (by decide)⟩

theorem test_witness_ClearThenAppend :
    (∃ t, exec .clear fullStore = .next t ∧ t.cursor = 0)
      ∧ (setCursor 0 fullStore).cursor = 0 ∧ (setCursor 0 fullStore).masked = false
      ∧ ∃ t, exec (.completion 0x5A#8) (setCursor 0 fullStore) = .next t ∧ t.cursor = 1 :=
  ⟨next_of_settled (by decide), rfl, rfl, next_of_settled (by decide)⟩

/-- V-B6, V-B9, V-B8. -/
theorem test_witness_CommandComesBeforeCompletion :
    (∃ t, step (withRecords [0x0000079905000000#64] fullStore) = .next t ∧ t.cursor = 1)
      ∧ (∃ t, step (setMasked true (setCursor 4 (fresh [0x0000078004000000#64]))) = .next t ∧ t.cursor = 5)
      ∧ (∃ t, step (setCursor 2 (fresh [0x0000071103000000#64])) = .next t ∧ t.cursor = 2)
      ∧ Runs (withRecords [0x0000079905000000#64] fullStore)
        { issued 0x05000000#32 with adcData := 0x99#8, adcValid := true }
      ∧ fullStore.masked = false :=
  ⟨next_of_settled (by decide), next_of_settled (by decide), next_of_settled (by decide),
    runs_of rfl (by decide) rfl, rfl⟩

/-- P1's cycles 0 to 4: `FULL` with the fifth completion. -/
theorem test_witness_FullnessLaw :
    let s := fresh [0x0000070000000000#64, 0x0000074000000000#64, 0x0000078000000000#64,
      0x000007C000000000#64, 0x000007FF00000000#64]
    s.cursor = 0 ∧ s.masked = false ∧ s.pendV = false ∧ 5 ≤ s.inputs.length
      ∧ (∀ x ∈ s.inputs.take 5, keepsCapture x = true)
      ∧ (∃ t, run 4 s = .next t ∧ (full t, readMemory t.buf 3) = (false, some 0xC0#8))
      ∧ ∃ t, run 5 s = .next t ∧ (full t, readMemory t.buf 4) = (true, some 0xFF#8) :=
  ⟨rfl, rfl, rfl, by decide, by decide, next_of_settled (by decide), next_of_settled (by decide)⟩

theorem test_witness_CaptureContent :
    let s := fresh [0x0000070000000000#64, 0#64, 0x0000074000000000#64]
    s.cursor = 0 ∧ s.masked = false ∧ s.pendV = false ∧ 3 ≤ s.inputs.length
      ∧ (∀ x ∈ s.inputs.take 3, keepsCapture x = true) ∧ samplesOf (s.inputs.take 3) = [0x00#8, 0x40#8]
      ∧ ∃ t, run 3 s = .next t ∧ t.cursor = 2 :=
  ⟨rfl, rfl, rfl, by decide, by decide, by decide, next_of_settled (by decide)⟩

theorem test_witness_ButtonsActEveryCycle :
    Runs (samplePins false false (fresh [0x0000060000000000#64])) (issued 0#32)
      ∧ (∃ t, step (samplePins false false (fresh [0x0000060000000000#64])) = .next t
        ∧ (t.selector, t.view) = (1, .menu))
      ∧ (∃ t, step (fresh [0x0000060000000000#64]) = .next t ∧ (t.selector, t.view) = (0, .scope)) :=
  ⟨⟨rfl, by decide, rfl, rfl⟩, next_of_settled (by decide), next_of_settled (by decide)⟩

/-- The same under `Falling`: the events fall in the first cycle of the two. -/
theorem test_witness_BounceLaw_falling :
    let s := State.powerOn fallingConfig 0
      [{ rstN := true, word := 0#64 }, { rstN := true, word := 0x0000060000000000#64 }]
    1 ≤ 2 * 1 ∧ 2 * 1 ≤ s.inputs.length ∧ (∀ x ∈ s.inputs.take (2 * 1), x.rstN = true)
      ∧ s.prevA = true ∧ pinLevels 41 (s.inputs.take (2 * 1)) = bounceLevels 1
      ∧ s.prevB = true ∧ pinLevels 42 (s.inputs.take (2 * 1)) = bounceLevels 1
      ∧ (∃ t, run 1 s = .next t ∧ (t.selector, t.view) = (1, .menu))
      ∧ ∃ t, run 2 s = .next t ∧ (t.selector, t.view) = (1, .menu) :=
  ⟨by decide, by decide, by decide, rfl, by decide, rfl, by decide, next_of_settled (by decide),
    next_of_settled (by decide)⟩

/-- `BOUNCE A 1` and `PRESS B` at once. -/
theorem test_witness_BounceLaw :
    let s := fresh [0#64, 0x0000060000000000#64]
    2 ≤ 2 * 1 ∧ 2 * 1 ≤ s.inputs.length ∧ (∀ x ∈ s.inputs.take (2 * 1), x.rstN = true)
      ∧ s.prevA = true ∧ pinLevels 41 (s.inputs.take (2 * 1)) = bounceLevels 1
      ∧ s.prevB = true ∧ pinLevels 42 (s.inputs.take (2 * 1)) = bounceLevels 1
      ∧ ∃ t, run 2 s = .next t ∧ (t.selector, t.view) = (1, .menu) :=
  ⟨by decide, by decide, by decide, rfl, by decide, rfl, by decide, next_of_settled (by decide)⟩

theorem test_witness_RangeFollowsSelector :
    Inv busy
      ∧ (∃ t, step (withRecords [0x0000060000000000#64] busy) = .next t
        ∧ (t.selector, t.cfg.nItems) = (3, 3))
      ∧ (∃ t, step (fresh [0x0000060000000000#64]) = .next t ∧ t.selector = 0) :=
  ⟨busy_inv, next_of_settled (by decide), next_of_settled (by decide)⟩

theorem test_witness_HighlightLaw :
    legalConfig busy.cfg = true ∧ 1 ≤ busy.selector ∧ busy.selector ≤ busy.cfg.nItems
      ∧ (1#16 : Half).toNat < busy.cfg.nItems ∧ (1#16 : Half).toNat ≠ busy.selector - 1 := by decide

/-- At the least `PLOT_BOTTOM`, where row 0 is reached; and at the greatest. -/
theorem test_witness_RowLaws :
    legalConfig { Config.reference with plotBottom := 127 } = true
      ∧ row { Config.reference with plotBottom := 127 } 255#8 = 0
      ∧ legalConfig { Config.reference with plotBottom := 65535, plotTop := 65408 } = true := by decide

theorem test_witness_SegmentsCoverTheColumns :
    (∃ t, exec (.segment 2#16) fullStore = .next t ∧ (t.out.resp.extractLsb' 16 16).toNat = 3)
      ∧ exec (.segment 3#16) fullStore = .fault (.segIndex 0 0x09000003#32) :=
  ⟨next_of_settled (by decide), rfl⟩

/-- V-B7's cycle, RDBUF; SEGMENT with a completion into the cell it reads next. -/
theorem test_witness_CommandsSeeTheStartOfTheCycle_cells :
    (Runs (withRecords [0x0000077706000001#64] (setCursor 1 fullStore))
        { issued 0x06000001#32 with adcData := 0x77#8, adcValid := true }
      ∧ decodeCommand 0x06000001#32 = .ok (.rdbuf 1#16)
      ∧ ∃ t, step (withRecords [0x0000077706000001#64] (setCursor 1 fullStore)) = .next t
        ∧ (t.out.resp, readMemory t.buf 1) = (2#64, some 0x77#8))
    ∧ decodeCommand 0x09000002#32 = .ok (.segment 2#16)
      ∧ ∃ t, step (withRecords [0x000007FF09000002#64]
          (setCursor 3 (filled [0x00#8, 0x40#8, 0x80#8, 0xC0#8] State.reset))) = .next t
        ∧ (t.out.resp, readMemory t.buf 3) = (0x0068008800030002#64, some 0xFF#8) :=
  ⟨⟨runs_of rfl (by decide) rfl, rfl, next_of_settled (by decide)⟩, rfl, next_of_settled (by decide)⟩

/-- V-C9: RDREG 0 and 1, with the completion that fills the store in the same cycle. -/
theorem test_witness_CommandsSeeTheStartOfTheCycle_buffer :
    (decodeCommand 0x07000000#32 = .ok (.rdreg 0#16)
      ∧ ∃ t, step (setCursor 4 (fresh [0x0000071107000000#64])) = .next t
        ∧ (t.out.resp, t.cursor) = (0#64, 5))
    ∧ decodeCommand 0x07000001#32 = .ok (.rdreg 1#16) ∧ (setCursor 4 State.reset).cursor ≤ 65536
      ∧ ∃ t, step (setCursor 4 (fresh [0x0000071107000001#64])) = .next t
        ∧ (t.out.resp, t.cursor) = (4#64, 5) :=
  ⟨⟨rfl, next_of_settled (by decide)⟩, rfl, by decide, next_of_settled (by decide)⟩

/-- V-I11's cycle, with HILITE 0, RDREG 3, RDREG 4 and RDREG 2: ADVANCE shows one cycle later. -/
theorem test_witness_CommandsSeeTheStartOfTheCycle_menu :
    (∃ t, step (samplePins false true (fresh [0x000006000A000000#64])) = .next t
        ∧ (t.out.resp, t.selector) = (0#64, 1))
      ∧ decodeCommand 0x07000003#32 = .ok (.rdreg 3#16) ∧ (setSelector 1 State.reset).selector ≤ 32
      ∧ (∃ t, step (setSelector 1 (samplePins false true (fresh [0x0000060007000003#64]))) = .next t
        ∧ (t.out.resp, t.selector) = (1#64, 2))
      ∧ (∃ t, step (setSelector 1 (samplePins false true (fresh [0x0000060007000004#64]))) = .next t
        ∧ (t.out.resp, t.range) = (1#64, 2#32))
      ∧ (∃ t, step (setPeriod 4#16 (fresh [0x0000060007000002#64])) = .next t ∧ t.out.resp = 4#64) :=
  ⟨next_of_settled (by decide), rfl, by decide, next_of_settled (by decide), next_of_settled (by decide),
    next_of_settled (by decide)⟩

theorem test_witness_ConverterAnswersATrigger :
    1 ≤ 2 ∧ [(true, false)].length + 1 = 2
      ∧ converterKeeps 2 0 ((true, false) :: [(true, false)] ++ (false, true) :: [(true, false)]) = true := by
  decide

end Sys2Proof.Tests
end

section
/-! PROOF. The legal configurations (spec/00_scope.md R7, R9). -/

namespace Sys2Proof.Proofs

open Sys2Proof.Machine

/-- R9's list of the bounds, with the one-hot pattern still under the model's own name. -/
theorem legalConfig_iff_bounds {c : Config} :
    legalConfig c = true ↔
      (2 ≤ c.width ∧ c.width ≤ 65535) ∧ (1 ≤ c.nItems ∧ c.nItems ≤ 32)
      ∧ (127 ≤ c.plotBottom ∧ c.plotBottom ≤ 65535) ∧ c.plotTop + 127 ≤ c.plotBottom
      ∧ isOnehot c.nItems c.rangeReset = true ∧ (1 ≤ c.convLat ∧ c.convLat ≤ 65535) := by
  simp only [legalConfig, Bool.and_eq_true, decide_eq_true_eq, and_assoc]

/-- Settles O14: the checks one by one; the one-hot pattern is R9's bit condition, and the plot's span of
128 rows needs `PLOT_BOTTOM` to be at least 127 for R9's difference not to be cut off at 0. -/
theorem legalConfigurations : Obligations.LegalConfigurations := by
  intro c
  rw [legalConfig_iff_bounds, isOnehot_iff_bits]
  refine and_congr_right fun _ => and_congr_right fun _ => and_congr_right fun ⟨bottom_ge, _⟩ =>
    and_congr_left' ?_
  exact (Nat.le_sub_iff_add_le bottom_ge).symm

end Sys2Proof.Proofs
end

section
/-! PROOF. What one operation and one cycle do to each piece of the state, said once for the family of
spec/10_state.md: the effect of an operation that completes, and a cycle out of reset as its command's
effect followed by the phases after it. -/

namespace Sys2Proof.Proofs

open Sys2Proof.Machine Sys2Proof.Safety

/-! ## The effect of an operation -/

/-- The state an operation leaves, by the field it writes. A command that writes none only answers: NOP,
the reads, and START while running. -/
inductive Effect (s : State) : Instr → State → Prop
  | answer {i : Instr} (v : Long) (command : i.isCommand = true) : Effect s i (respond v s)
  | period {p : Half} (nonzero : p ≠ 0#16) : Effect s (.cfgper p) (respond 0#64 (setPeriod p s))
  | start (stopped : s.running = false) (configured : s.period ≠ 0#16) :
      Effect s .start (respond 0#64 (startClock s))
  | mask : Effect s .mask (respond 0#64 (setMasked true s))
  | unmask : Effect s .unmask (respond 0#64 (setMasked false s))
  | clear : Effect s .clear (respond 0#64 (setCursor 0 s))
  | completion (d : Byte) : Effect s (.completion d) (completed d s)
  | advance : Effect s .edgeA (setSelector (advanced s.cfg.nItems s.selector) s)
  | confirm : Effect s .edgeB (setView (toggled s.view) s)

/-- An operation that completes has its effect and no other. -/
theorem effect_of_exec {i : Instr} {s t : State} (h : exec i s = .next t) : Effect s i t := by
  cases i with
  | nop => obtain rfl := exec_nop_next.mp h; exact .answer _ rfl
  | cfgper p => obtain ⟨nonzero, rfl⟩ := exec_cfgper_next.mp h; exact .period nonzero
  | start =>
    obtain ⟨-, rfl⟩ | ⟨stopped, configured, rfl⟩ := exec_start_next.mp h
    · exact .answer _ rfl
    · exact .start stopped configured
  | mask => obtain rfl := exec_mask_next.mp h; exact .mask
  | unmask => obtain rfl := exec_unmask_next.mp h; exact .unmask
  | clear => obtain rfl := exec_clear_next.mp h; exact .clear
  | rdbuf a => obtain ⟨-, rfl⟩ := exec_rdbuf_next.mp h; exact .answer _ rfl
  | rdreg n => obtain ⟨_, -, rfl⟩ := exec_rdreg_next.mp h; exact .answer _ rfl
  | maprow d => obtain rfl := exec_maprow_next.mp h; exact .answer _ rfl
  | segment k => obtain ⟨-, rfl⟩ := exec_segment_next.mp h; exact .answer _ rfl
  | hilite r => obtain ⟨-, rfl⟩ := exec_hilite_next.mp h; exact .answer _ rfl
  | completion d =>
    obtain rfl := Host.Outcome.next.inj ((exec_completion d s).symm.trans h)
    exact .completion d
  | edgeA => obtain rfl := Host.Outcome.next.inj ((exec_edgeA s).symm.trans h); exact .advance
  | edgeB => obtain rfl := Host.Outcome.next.inj ((exec_edgeB s).symm.trans h); exact .confirm

/-- Settles O38: each effect writes the fields of its own operation. -/
theorem eachFieldHasItsWriters : Obligations.EachFieldHasItsWriters := by
  intro s t i h
  cases effect_of_exec h with
  | answer v command => simp [readCell, SameLatch, SamePins, SameRest, command]
  | period | start | mask | unmask | clear =>
    simp [readCell, SameLatch, SamePins, SameRest, Instr.isCommand]
  | completion d => simp [SamePins, SameRest]
  | advance | confirm => simp [readCell, SameLatch, SamePins, SameRest]

/-- What every command leaves to the events of its cycle and to the phases after them. -/
structure CommandFrame (s t : State) : Prop where
  cfg : t.cfg = s.cfg
  buf : t.buf = s.buf
  pendV : t.pendV = s.pendV
  selector : t.selector = s.selector
  range : t.range = s.range
  cursor : t.cursor = s.cursor ∨ t.cursor = 0

theorem Effect.commandFrame {i : Instr} {s t : State} (h : Effect s i t) (command : i.isCommand = true) :
    CommandFrame s t := by
  cases h with
  | answer | period | start | mask | unmask => exact ⟨rfl, rfl, rfl, rfl, rfl, .inl rfl⟩
  | clear => exact ⟨rfl, rfl, rfl, rfl, rfl, .inr rfl⟩
  | completion | advance | confirm => cases command

/-- Taking a cycle's inputs off the list writes none of the frame's fields. -/
theorem CommandFrame.of_popInput {s t : State} (h : CommandFrame (popInput s) t) : CommandFrame s t := by
  obtain ⟨cfg, buf, pendV, selector, range, cursor⟩ := h
  exact ⟨cfg, buf, pendV, selector, range, cursor⟩

/-- R28: no operation clears `RUNNING`. -/
theorem Effect.keeps_running {i : Instr} {s t : State} (h : Effect s i t) (hr : s.running = true) :
    t.running = true := by
  cases h <;> simp [hr]

/-- R42 (e) through a command: a running clock has a period, and one just started is below it. -/
theorem Effect.clock_legal {i : Instr} {s t : State} (h : Effect s i t)
    (legal : s.running = true → 1 ≤ s.period.toNat) (running : t.running = true) :
    1 ≤ t.period.toNat ∧ (s.running = false → t.count.toNat < t.period.toNat) := by
  have pos : ∀ p : Half, p ≠ 0#16 → 1 ≤ p.toNat := fun p hp =>
    Nat.pos_of_ne_zero (mt period_zero_iff.mp hp)
  cases h with
  | period nonzero => exact ⟨pos _ nonzero, fun stopped => by simp [stopped] at running⟩
  | start _ configured => exact ⟨pos _ configured, fun _ => pos _ configured⟩
  | answer | mask | unmask | clear | completion | advance | confirm =>
    have running : s.running = true := by simpa using running
    simpa [running] using legal running

/-! ## The command of a cycle -/

/-- Every row of R76 is a command, whatever R78 checks of its operand. -/
theorem selectCommand_isCommand {opc : Byte} {imm : Half} {i : Instr}
    (h : selectCommand opc imm = .ok i) : i.isCommand = true := by
  unfold selectCommand at h
  split_ifs at h <;> simp only [noOperand_ok, sampleOperand_ok, Except.ok.injEq] at h <;>
    grind [Instr.isCommand]

/-- A word that decodes spells a command, never an event. -/
theorem decodeCommand_isCommand {w : Word} {i : Instr} (h : decodeCommand w = .ok i) :
    i.isCommand = true := by
  unfold decodeCommand at h
  split_ifs at h
  exact selectCommand_isCommand h

/-- A cycle that answers a next state: a reset cycle, or a command's effect and the phases after it. -/
theorem step_cases {s t : State} (ht : step s = .next t) :
    (InReset s ∧ t = resetCycle (popInput s)) ∨
    (legalConfig s.cfg = true ∧ ∃ r i w, i.isCommand = true ∧ Effect (popInput s) i w ∧
      t = cycleEnd r (popInput s) w) := by
  obtain reset | ⟨r, i, w, ⟨⟨-, legal, -, -⟩, hi⟩, hw, rfl⟩ := step_next_cases ht
  · exact .inl reset
  · exact .inr ⟨legal, r, i, w, decodeCommand_isCommand hi, effect_of_exec hw, rfl⟩

/-- The same for a cycle out of reset. -/
theorem step_cases_of_rstN {s t : State} (ht : step s = .next t) (hn : (nextInput s).rstN = true) :
    ∃ r i w, i.isCommand = true ∧ Effect (popInput s) i w ∧ t = cycleEnd r (popInput s) w := by
  obtain ⟨⟨-, -, hn', -⟩, -⟩ | ⟨-, h⟩ := step_cases ht
  · simp [hn] at hn'
  · exact h

/-- Settles O45: `RUNNING` at a cycle's end is what its command left. -/
theorem runningIsNeverCleared : Obligations.RunningIsNeverCleared := by
  refine ⟨fun _ _ h => ?_, fun _ _ ht hr hn => ?_, fun _ _ _ h => (effect_of_exec h).keeps_running,
    fun _ _ _ => rfl⟩
  · obtain ⟨runs, rfl⟩ | ⟨-, -, rfl⟩ := exec_start_next.mp h
    · exact runs
    · rfl
  · obtain ⟨r, i, w, -, hw, rfl⟩ := step_cases_of_rstN ht hn
    simpa using hw.keeps_running hr

end Sys2Proof.Proofs
end

section
/-! PROOF. The state at power-on and after a reset cycle (spec/10_state.md R22, R23, R25, R42). -/

namespace Sys2Proof.Proofs

open Sys2Proof.Machine Sys2Proof.Safety

/-- No cell of a store without entries has been written: each reads as its free value. -/
theorem readCell_of_buf_nil {s : State} (h : s.buf = []) (a : Nat) :
    readCell s a = Config.powerOnCell s.epoch a := by
  simp [readCell, h, readMemory]

/-- Settles O16: the reset cycle's state is the next power-on's. -/
theorem resetStartsNewRun : Obligations.ResetStartsNewRun :=
  ⟨fun _ h => ⟨_, step_of_reset h, rfl, rfl, rfl, readCell_of_buf_nil rfl⟩,
    fun _ _ _ => ⟨rfl, readCell_of_buf_nil rfl⟩⟩

theorem inv_powerOn {c : Config} (e : Nat) (ins : List CycleInput) (legal : legalConfig c = true) :
    Inv (State.powerOn c e ins) where
  cursor_le := Nat.zero_le _
  selector_le := Nat.zero_le _
  range_onehot := by
    obtain ⟨-, -, -, -, onehot, -⟩ := legalConfig_iff_bounds.mp legal
    exact onehot
  range_selected := by simp
  clock_legal := by simp

theorem storeInv_powerOn (c : Config) (e : Nat) (ins : List CycleInput) :
    StoreInv (State.powerOn c e ins) where
  canonical := Memory.wf_powerOn c e ins
  in_store _ _ := rfl
  filled _ h := absurd h (Nat.not_lt_zero _)
  latch_idle _ := rfl

/-- A reset cycle is a power-on with other levels on the registered outputs, which no invariant names. -/
theorem inv_resetCycle {s : State} (legal : legalConfig s.cfg = true) : Inv (resetCycle s) := by
  obtain ⟨cursor_le, selector_le, range_onehot, range_selected, clock_legal⟩ :=
    inv_powerOn (s.epoch + 1) s.inputs legal
  exact ⟨cursor_le, selector_le, range_onehot, range_selected, clock_legal⟩

theorem storeInv_resetCycle (s : State) : StoreInv (resetCycle s) := by
  obtain ⟨canonical, in_store, filled, latch_idle⟩ := storeInv_powerOn s.cfg (s.epoch + 1) s.inputs
  exact ⟨canonical, in_store, filled, latch_idle⟩

/-- Settles O17: power-on has an empty store, both registers at 0 and the clock stopped; its range is
one-hot because the configuration is legal. -/
theorem invariantsAtPowerOn : Obligations.InvariantsAtPowerOn := by
  have legal : legalConfig Config.reference = true := by decide
  exact ⟨fun c e ins hc => ⟨inv_powerOn e ins hc, storeInv_powerOn c e ins⟩,
    inv_powerOn 0 [] legal, storeInv_powerOn _ 0 [], legal⟩

/-- Settles O21: by the cursor's bound of R42 (a). -/
theorem fullIsOneAboveWidth : Obligations.FullIsOneAboveWidth := by
  refine ⟨fun _ => full_iff, fun s hs => ?_, fun _ _ _ => rfl⟩
  have cursor_le := hs.cursor_le
  rw [full_iff]
  omega

end Sys2Proof.Proofs
end

section
/-! PROOF. The register invariants R42 (a) to (f), over one cycle and over every run. -/

namespace Sys2Proof.Proofs

open Sys2Proof.Machine Sys2Proof.Safety

/-! ## Each clause at a cycle's end, from the state its command left -/

theorem cycleEnd_cursor_le {r : CycleRecord} {s0 w : State} (h : w.cursor ≤ w.cfg.width + 1) :
    (cycleEnd r s0 w).cursor ≤ w.cfg.width + 1 := by
  rw [cycleEnd_cursor]
  obtain ⟨-, kept⟩ | ⟨-, room, -, -, raised, -⟩ := afterCompletion_store r w
  · exact kept ▸ h
  · rw [not_full_iff] at room
    omega

/-- R181: ADVANCE goes to 1 or up by one. -/
theorem one_le_advanced (n sel : Nat) : 1 ≤ advanced n sel := by
  unfold advanced
  split <;> omega

theorem advanced_le {n : Nat} (sel : Nat) (h : 1 ≤ n) : advanced n sel ≤ n := by
  unfold advanced
  split <;> omega

theorem cycleEnd_selector_le {r : CycleRecord} {s0 w : State} (items : 1 ≤ w.cfg.nItems)
    (h : w.selector ≤ w.cfg.nItems) : (cycleEnd r s0 w).selector ≤ w.cfg.nItems := by
  rw [cycleEnd_selector]
  split
  · exact advanced_le _ items
  · exact h

theorem one_le_cycleEnd_selector {r : CycleRecord} {s0 w : State} (h : 1 ≤ w.selector) :
    1 ≤ (cycleEnd r s0 w).selector := by
  rw [cycleEnd_selector]
  split
  · exact one_le_advanced _ _
  · exact h

theorem cycleEnd_range_onehot {r : CycleRecord} {s0 w : State}
    (h : isOnehot w.cfg.nItems w.range = true) :
    isOnehot w.cfg.nItems (cycleEnd r s0 w).range = true := by
  rw [cycleEnd_range]
  split
  · exact isOnehot_onehot (by omega)
  · exact h

/-- R42 (e): the counter returns to 0 before it reaches the period. -/
theorem cycleEnd_clock_legal {r : CycleRecord} {s0 w : State} (period : 1 ≤ w.period.toNat)
    (stopped : s0.running = false → w.count.toNat < w.period.toNat) :
    (cycleEnd r s0 w).count.toNat < w.period.toNat := by
  obtain ⟨h0, count, -⟩ | ⟨-, -, count, -⟩ | ⟨-, below, count, -⟩ := cycleEnd_clock r s0 w
  · exact count ▸ stopped h0
  · rw [count]
    exact period
  · rw [count, BitVec.toNat_add_of_lt (by simp; omega)]
    exact below

/-! ## The invariants over a cycle -/

/-- The phases after a command restore R42 (a) to (e). -/
theorem inv_cycleEnd {r : CycleRecord} {s w : State} {i : Instr} (legal : legalConfig s.cfg = true)
    (hs : Inv s) (command : i.isCommand = true) (hw : Effect (popInput s) i w) :
    Inv (cycleEnd r (popInput s) w) := by
  obtain ⟨cfg, -, -, selector, range, cursor⟩ := (hw.commandFrame command).of_popInput
  obtain ⟨-, ⟨items, -⟩, -⟩ := legalConfig_iff_bounds.mp legal
  have cursor_le := hs.cursor_le
  have selector_le : (cycleEnd r (popInput s) w).selector ≤ w.cfg.nItems :=
    cycleEnd_selector_le (cfg ▸ items) (by rw [cfg, selector]; exact hs.selector_le)
  exact
    { cursor_le := by
        rw [cycleEnd_cfg]
        exact cycleEnd_cursor_le (by rw [cfg]; omega)
      selector_le := by
        rw [cycleEnd_cfg]
        exact selector_le
      range_onehot := by
        rw [cycleEnd_cfg]
        exact cycleEnd_range_onehot (by rw [cfg, range]; exact hs.range_onehot)
      range_selected := fun selected => by
        rw [cycleEnd_range, if_pos ⟨selected, selector_le⟩]
      clock_legal := fun running => by
        rw [cycleEnd_running] at running
        rw [cycleEnd_period]
        obtain ⟨period, started⟩ := hw.clock_legal (fun h => (hs.clock_legal h).1) running
        exact ⟨period, cycleEnd_clock_legal period started⟩ }

/-- Settles O18: a reset cycle is a power-on; any other cycle is a command and the phases after it. -/
theorem stepKeepsRegisterInvariant : Obligations.StepKeepsRegisterInvariant := by
  intro s t hs ht
  obtain ⟨⟨-, legal, -⟩, rfl⟩ | ⟨legal, r, i, w, command, hw, rfl⟩ := step_cases ht
  · exact inv_resetCycle legal
  · exact inv_cycleEnd legal hs command hw

/-- R42 (f): out of reset the selector never returns to 0. -/
theorem one_le_selector_step {s t : State} (ht : step s = .next t) (hn : (nextInput s).rstN = true)
    (h : 1 ≤ s.selector) : 1 ≤ t.selector := by
  obtain ⟨r, i, w, command, hw, rfl⟩ := step_cases_of_rstN ht hn
  exact one_le_cycleEnd_selector ((hw.commandFrame command).selector ▸ h)

/-- Settles O20: power-on meets the invariants and every cycle keeps them. -/
theorem runsMeetStateInvariants : Obligations.RunsMeetStateInvariants := by
  intro c e ins k t legal ht
  have inv : Inv t := run_induction stepKeepsRegisterInvariant k _ t (inv_powerOn e ins legal) ht
  exact ⟨inv.cursor_le, inv.selector_le, isOnehot_iff_bits.mp inv.range_onehot, inv.range_selected,
    inv.clock_legal, fun selected u hu hn => one_le_selector_step hu hn selected⟩

end Sys2Proof.Proofs
end

section
/-! PROOF. The capture store's invariant over one cycle (spec/10_state.md R23, R34; spec/20_memory.md R50;
spec/42_capture_buffer.md R140, R141, R148). -/

namespace Sys2Proof.Proofs

open Sys2Proof.Machine Sys2Proof.Safety

/-! ## Phase 2, clause by clause -/

theorem afterCompletion_canonical (r : CycleRecord) {w : State} (h : Memory.wf w.buf = true) :
    Memory.wf (afterCompletion r w).buf = true := by
  obtain ⟨buf, -⟩ | ⟨-, -, v, buf, -⟩ := afterCompletion_store r w <;> rw [buf]
  · exact h
  · exact Memory.wf_write _ v h

/-- R140: an append goes to a cell of the store, for a store that is not full has room at the cursor. -/
theorem afterCompletion_in_store (r : CycleRecord) {w : State} {a : Nat} (ha : w.cfg.width < a)
    (h : readMemory w.buf a = none) : readMemory (afterCompletion r w).buf a = none := by
  obtain ⟨buf, -⟩ | ⟨-, room, v, buf, -⟩ := afterCompletion_store r w <;> rw [buf]
  · exact h
  · rw [not_full_iff] at room
    rwa [readMemory_write_other _ v (by omega)]

/-- R148: the cursor rises over the cell just written. -/
theorem afterCompletion_filled (r : CycleRecord) {w : State}
    (h : ∀ a, a < w.cursor → readMemory w.buf a ≠ none) (a : Nat)
    (ha : a < (afterCompletion r w).cursor) : readMemory (afterCompletion r w).buf a ≠ none := by
  obtain ⟨buf, cursor⟩ | ⟨-, -, v, buf, cursor, -⟩ := afterCompletion_store r w <;>
    rw [buf] <;> rw [cursor] at ha
  · exact h a ha
  · by_cases written : a = w.cursor
    · simp [written]
    · rw [readMemory_write_other _ v written]
      exact h a (by omega)

/-! ## The whole cycle -/

/-- What a command leaves of the store's invariant, and the phases after it restore: CLEAR only lowers the
cursor, and what UNMASK finds held is appended in the same cycle. -/
theorem storeInv_cycleEnd {r : CycleRecord} {s s0 w : State} (hs : StoreInv s) (frame : CommandFrame s w) :
    StoreInv (cycleEnd r s0 w) := by
  obtain ⟨cfg, buf, pendV, -, -, cursor⟩ := frame
  exact
    { canonical := by
        rw [cycleEnd_buf]
        exact afterCompletion_canonical r (buf ▸ hs.canonical)
      in_store := fun a ha => by
        rw [cycleEnd_cfg] at ha
        rw [cycleEnd_buf]
        exact afterCompletion_in_store r ha (by rw [buf]; exact hs.in_store a (cfg ▸ ha))
      filled := fun a ha => by
        rw [cycleEnd_cursor] at ha
        rw [cycleEnd_buf]
        exact afterCompletion_filled r (fun b hb => by rw [buf]; exact hs.filled b (by omega)) a ha
      latch_idle := fun idle => by
        rw [cycleEnd_cfg, cycleEnd_masked] at idle
        rw [cycleEnd_pendV]
        refine afterCompletion_latch r w (fun drop => ?_) idle
        rw [pendV]
        exact hs.latch_idle (.inl (cfg ▸ drop)) }

/-- Settles O19: a reset cycle is a power-on; any other cycle is a command and the phases after it. -/
theorem stepKeepsStoreInvariant : Obligations.StepKeepsStoreInvariant := by
  intro s t hs ht
  obtain ⟨-, rfl⟩ | ⟨-, r, i, w, command, hw, rfl⟩ := step_cases ht
  · exact storeInv_resetCycle _
  · exact storeInv_cycleEnd hs (hw.commandFrame command).of_popInput

end Sys2Proof.Proofs
end

section
/-! PROOF. No command reads the hidden state (spec/10_state.md R40). -/

namespace Sys2Proof.Proofs

open Sys2Proof.Machine Sys2Proof.Safety

section
variable {s s' : State} (h : SameVisible s s')
include h

theorem sameVisible_symm : SameVisible s' s := by
  obtain ⟨store, ⟨cursor, masked⟩, period, running, ⟨selector, view⟩, range, cfg⟩ := h
  exact ⟨fun a => (store a).symm, ⟨cursor.symm, masked.symm⟩, period.symm, running.symm,
    ⟨selector.symm, view.symm⟩, range.symm, cfg.symm⟩

/-! ## What the visible state determines -/

theorem registerValue_of_sameVisible (n : Nat) : registerValue s' n = registerValue s n := by
  obtain ⟨-, ⟨cursor, masked⟩, period, running, ⟨selector, view⟩, range, cfg⟩ := h
  simp only [registerValue, statusWord, full, cursor, masked, period, running, selector, view,
    range, cfg]

theorem segmentResponse_of_sameVisible (k : Nat) : segmentResponse s' k = segmentResponse s k := by
  obtain ⟨store, -, -, -, -, -, cfg⟩ := h
  simp only [segmentResponse, store k, store (k + 1), cfg]

/-! ## The updates of the commands -/

theorem sameVisible_respond (v : Long) : SameVisible (respond v s) (respond v s') := h

theorem sameVisible_setPeriod (p : Half) : SameVisible (setPeriod p s) (setPeriod p s') := by
  obtain ⟨store, cursorMask, -, rest⟩ := h
  exact ⟨store, cursorMask, rfl, rest⟩

theorem sameVisible_startClock : SameVisible (startClock s) (startClock s') := by
  obtain ⟨store, cursorMask, period, -, rest⟩ := h
  exact ⟨store, cursorMask, period, rfl, rest⟩

theorem sameVisible_setMasked (b : Bool) : SameVisible (setMasked b s) (setMasked b s') := by
  obtain ⟨store, ⟨cursor, -⟩, rest⟩ := h
  exact ⟨store, ⟨cursor, rfl⟩, rest⟩

theorem sameVisible_setCursor (n : Nat) : SameVisible (setCursor n s) (setCursor n s') := by
  obtain ⟨store, ⟨-, masked⟩, rest⟩ := h
  exact ⟨store, ⟨rfl, masked⟩, rest⟩

end

/-- A command that completes also completes in a state that differs in the hidden state alone, with the same
answer and again the same visible state. -/
theorem exec_of_sameVisible {s s' t : State} {i : Instr} (command : i.isCommand = true)
    (h : SameVisible s s') (ht : exec i s = .next t) :
    ∃ t', exec i s' = .next t' ∧ t.out.resp = t'.out.resp ∧ SameVisible t t' := by
  obtain ⟨store, -, period, running, ⟨selector, -⟩, -, cfg⟩ := id h
  cases i with
  | nop =>
    obtain rfl := exec_nop_next.mp ht
    exact ⟨_, exec_nop_next.mpr rfl, rfl, sameVisible_respond h _⟩
  | cfgper p =>
    obtain ⟨nonzero, rfl⟩ := exec_cfgper_next.mp ht
    exact ⟨_, exec_cfgper_next.mpr ⟨nonzero, rfl⟩, rfl,
      sameVisible_respond (sameVisible_setPeriod h p) _⟩
  | start =>
    rw [exec_start_next, ← running, ← period] at ht
    obtain ⟨runs, rfl⟩ | ⟨stopped, configured, rfl⟩ := ht
    · exact ⟨_, exec_start_next.mpr (.inl ⟨runs, rfl⟩), rfl, sameVisible_respond h _⟩
    · exact ⟨_, exec_start_next.mpr (.inr ⟨stopped, configured, rfl⟩), rfl,
        sameVisible_respond (sameVisible_startClock h) _⟩
  | mask =>
    obtain rfl := exec_mask_next.mp ht
    exact ⟨_, exec_mask_next.mpr rfl, rfl, sameVisible_respond (sameVisible_setMasked h true) _⟩
  | unmask =>
    obtain rfl := exec_unmask_next.mp ht
    exact ⟨_, exec_unmask_next.mpr rfl, rfl, sameVisible_respond (sameVisible_setMasked h false) _⟩
  | clear =>
    obtain rfl := exec_clear_next.mp ht
    exact ⟨_, exec_clear_next.mpr rfl, rfl, sameVisible_respond (sameVisible_setCursor h 0) _⟩
  | rdbuf a =>
    rw [exec_rdbuf_next, ← cfg, ← store] at ht
    obtain ⟨bound, rfl⟩ := ht
    exact ⟨_, exec_rdbuf_next.mpr ⟨bound, rfl⟩, rfl, sameVisible_respond h _⟩
  | rdreg n =>
    obtain ⟨v, value, rfl⟩ := exec_rdreg_next.mp ht
    exact ⟨_, exec_rdreg_next.mpr ⟨v, (registerValue_of_sameVisible h _).trans value, rfl⟩, rfl,
      sameVisible_respond h _⟩
  | maprow d =>
    rw [exec_maprow_next, ← cfg] at ht
    subst ht
    exact ⟨_, exec_maprow_next.mpr rfl, rfl, sameVisible_respond h _⟩
  | segment k =>
    rw [exec_segment_next, ← cfg, ← segmentResponse_of_sameVisible h] at ht
    obtain ⟨bound, rfl⟩ := ht
    exact ⟨_, exec_segment_next.mpr ⟨bound, rfl⟩, rfl, sameVisible_respond h _⟩
  | hilite r =>
    rw [exec_hilite_next, ← cfg, ← selector] at ht
    obtain ⟨bound, rfl⟩ := ht
    exact ⟨_, exec_hilite_next.mpr ⟨bound, rfl⟩, rfl, sameVisible_respond h _⟩
  | completion | edgeA | edgeB => cases command

/-- Settles O40: the simulation, both ways; a command has one outcome. -/
theorem hiddenStateIsUnreadable : Obligations.HiddenStateIsUnreadable := by
  intro s s' i command h
  refine ⟨⟨fun ⟨t, ht⟩ => ?_, fun ⟨t, ht⟩ => ?_⟩, fun t t' ht ht' => ?_⟩
  · obtain ⟨t', ht', -⟩ := exec_of_sameVisible command h ht
    exact ⟨t', ht'⟩
  · obtain ⟨t', ht', -⟩ := exec_of_sameVisible command (sameVisible_symm h) ht
    exact ⟨t', ht'⟩
  · obtain ⟨u, hu, same⟩ := exec_of_sameVisible command h ht
    obtain rfl := Host.Outcome.next.inj (hu.symm.trans ht')
    exact same

end Sys2Proof.Proofs
end

section
/-! PROOF. Words as the bytes of a bus binding (spec/20_memory.md R51), and the word that a decoded command
was spelt with (spec/30_encoding.md R75, R76, R79). -/

namespace Sys2Proof.Proofs

/-! ## Bytes -/

/-- A word is the union of its four bytes, each in its place. -/
theorem word_eq_or_bytes (w : Word) :
    atWord 0 (w.extractLsb' 0 8) ||| atWord 8 (w.extractLsb' 8 8) ||| atWord 16 (w.extractLsb' 16 8)
      ||| atWord 24 (w.extractLsb' 24 8) = w := by
  apply BitVec.eq_of_getLsbD_eq
  intro i hi
  simp only [BitVec.getLsbD_or, atWord_getLsbD, BitVec.getLsbD_extractLsb']
  obtain h | ⟨h, h'⟩ | ⟨h, h'⟩ | h : i < 8 ∨ (8 ≤ i ∧ i < 16) ∨ (16 ≤ i ∧ i < 24) ∨ 24 ≤ i := by omega
  · simp [hi, h, show ¬ 8 ≤ i by omega, show ¬ 16 ≤ i by omega, show ¬ 24 ≤ i by omega]
  · simp [hi, h, show ¬ i < 8 by omega, show i - 8 < 8 by omega, show ¬ 16 ≤ i by omega,
      show ¬ 24 ≤ i by omega]
  · simp [hi, h, show ¬ i < 8 by omega, show ¬ i - 8 < 8 by omega, show i - 16 < 8 by omega,
      show ¬ 24 ≤ i by omega]
  · simp [hi, h, show ¬ i < 8 by omega, show ¬ i - 8 < 8 by omega, show ¬ i - 16 < 8 by omega,
      show i - 24 < 8 by omega]

theorem wordOfBytes_big (b0 b1 b2 b3 : Byte) :
    wordOfBytes .big b0 b1 b2 b3 = wordOfBytes .little b3 b2 b1 b0 := by
  simp only [wordOfBytes, BitVec.or_assoc, BitVec.or_comm]

/-- In either order, a word's bytes are four and make up that word. -/
theorem wordBytes_eq (o : ByteOrder) (w : Word) :
    ∃ b0 b1 b2 b3, wordBytes o w = [b0, b1, b2, b3] ∧ wordOfBytes o b0 b1 b2 b3 = w := by
  cases o with
  | little => exact ⟨_, _, _, _, rfl, word_eq_or_bytes w⟩
  | big => exact ⟨_, _, _, _, rfl, (wordOfBytes_big _ _ _ _).trans (word_eq_or_bytes w)⟩

/-- Settles O6: the four bytes make up the word, so the stream's decoder decodes that word. -/
theorem busBytesRoundTrip : Obligations.BusBytesRoundTrip := by
  intro o w rest
  obtain ⟨b0, b1, b2, b3, bytes, word⟩ := wordBytes_eq o w
  rw [bytes]
  exact ⟨fun i h => by simp [decodeBytes, word, h], fun e h => by simp [decodeBytes, word, h]⟩

/-! ## The word of a decoded command -/

/-- A half word whose upper byte is 0 is its lower byte, zero-extended. -/
theorem setWidth_low_byte {m : Half} (h : m.extractLsb' 8 8 = 0#8) :
    (m.extractLsb' 0 8).setWidth 16 = m := by
  have high := congrArg BitVec.toNat h
  apply BitVec.eq_of_toNat_eq
  simp only [BitVec.extractLsb'_toNat, BitVec.toNat_setWidth, BitVec.toNat_ofNat,
    Nat.shiftRight_eq_div_pow] at high ⊢
  omega

theorem commandWord_of_noOperand {opc : Byte} {imm : Half} {i j : Instr}
    (word : commandWord i = makeWord opc 0#16) (h : noOperand imm i = .ok j) :
    commandWord j = makeWord opc imm := by
  obtain ⟨rfl, rfl⟩ := noOperand_ok.mp h
  exact word

/-- R76: the row selected has the word that the opcode and the immediate make; the rows in the opcodes'
order. -/
theorem commandWord_of_selectCommand {opc : Byte} {imm : Half} {i : Instr} (range : opc.toNat ≤ 0x0A)
    (h : selectCommand opc imm = .ok i) : commandWord i = makeWord opc imm := by
  obtain ⟨n, hn, rfl⟩ : ∃ n ≤ 0x0A, opc = BitVec.ofNat 8 n := ⟨opc.toNat, range, by simp⟩
  clear range
  interval_cases n
  · exact commandWord_of_noOperand rfl h
  · obtain rfl := Except.ok.inj h; rfl
  · exact commandWord_of_noOperand rfl h
  · exact commandWord_of_noOperand rfl h
  · exact commandWord_of_noOperand rfl h
  · exact commandWord_of_noOperand rfl h
  · obtain rfl := Except.ok.inj h; rfl
  · obtain rfl := Except.ok.inj h; rfl
  · obtain ⟨high, rfl⟩ := sampleOperand_ok.mp h
    rw [commandWord, setWidth_low_byte high]
  · obtain rfl := Except.ok.inj h; rfl
  · obtain rfl := Except.ok.inj h; rfl

/-- R79: a word that decodes is the word of the command it decodes to. -/
theorem commandWord_of_decodeCommand {w : Word} {i : Instr} (h : decodeCommand w = .ok i) :
    commandWord i = w := by
  unfold decodeCommand at h
  split_ifs at h with range rsv
  rw [commandWord_of_selectCommand (by omega) h]
  exact makeWord_fields (not_not.mp rsv)

end Sys2Proof.Proofs
end

section
/-! PROOF. What keeps the capture store as it is: a full store, a mask, a cycle with nothing to append
(spec/20_memory.md R54, R58, R59). -/

namespace Sys2Proof.Proofs

open Sys2Proof.Machine Sys2Proof.Safety

/-! ## The command's part -/

theorem Effect.epoch {i : Instr} {s t : State} (h : Effect s i t) : t.epoch = s.epoch := by
  cases h <;> simp

/-- R144: no command but CLEAR moves `CURSOR`. -/
theorem Effect.cursor_of_ne_clear {i : Instr} {s t : State} (h : Effect s i t)
    (command : i.isCommand = true) (ne : i ≠ .clear) : t.cursor = s.cursor := by
  cases h with
  | answer | period | start | mask | unmask => rfl
  | clear => exact absurd rfl ne
  | completion | advance | confirm => cases command

/-- R142: no operation but UNMASK ends a mask. -/
theorem Effect.keeps_masked {i : Instr} {s t : State} (h : Effect s i t) (ne : i ≠ .unmask)
    (masked : s.masked = true) : t.masked = true := by
  cases h with
  | unmask => exact absurd rfl ne
  | mask => rfl
  | answer | period | start | clear | completion | advance | confirm => simpa using masked

/-! ## Phase 2's part -/

/-- R140, R141: what keeps phase 2 from an append. -/
def NoAppend (r : CycleRecord) (s : State) : Prop :=
  s.masked = true ∨ full s = true ∨ (r.adcValid = false ∧ s.pendV = false)

theorem afterCompletion_store_kept {r : CycleRecord} {w : State} (h : NoAppend r w) :
    (afterCompletion r w).buf = w.buf ∧ (afterCompletion r w).cursor = w.cursor := by
  obtain kept | ⟨unmasked, room, -, -, -, -, held⟩ := afterCompletion_store r w
  · exact kept
  · obtain masked | isFull | ⟨noSample, nothingHeld⟩ := h
    · simp [unmasked] at masked
    · simp [room] at isFull
    · simp [held noSample] at nothingHeld

/-- A command and a cycle's phases without an append keep every cell, and `CURSOR` is what the command
left. -/
theorem cycleEnd_store_kept {r : CycleRecord} {i : Instr} {s s0 w : State} (hw : Effect (popInput s) i w)
    (command : i.isCommand = true) (h : NoAppend r w) :
    SameStore s (cycleEnd r s0 w) ∧ (cycleEnd r s0 w).cursor = w.cursor := by
  obtain ⟨buf, cursor⟩ := afterCompletion_store_kept h
  refine ⟨readCell_congr ?_ ?_, by rw [cycleEnd_cursor, cursor]⟩
  · rw [cycleEnd_buf, buf]
    exact (hw.commandFrame command).buf
  · rw [cycleEnd_epoch]
    exact hw.epoch

/-- Settles O46: a command other than CLEAR leaves the store full, and a full store takes no append. -/
theorem fullStoreIsStable : Obligations.FullStoreIsStable := by
  intro s t r runs isFull ht notClear
  obtain ⟨i, w, ⟨-, hi⟩, hw, rfl⟩ := step_next_of_runs runs ht
  have effect := effect_of_exec hw
  have command := decodeCommand_isCommand hi
  have cursor : w.cursor = s.cursor := effect.cursor_of_ne_clear command
    (by rintro rfl; exact notClear (commandWord_of_decodeCommand hi).symm)
  have cfg : w.cfg = s.cfg := (effect.commandFrame command).cfg
  have full_w : full w = true := by simpa only [full, cursor, cfg] using isFull
  obtain ⟨store, kept⟩ := cycleEnd_store_kept (s0 := popInput s) effect command (.inr (.inl full_w))
  exact ⟨store, kept.trans cursor, by simpa only [full, kept, cycleEnd_cfg] using full_w⟩

/-- Settles O47: the command leaves the store masked, and a masked store takes no append. -/
theorem maskHoldsTheStore : Obligations.MaskHoldsTheStore := by
  intro s t r runs masked notUnmask ht
  obtain ⟨i, w, ⟨-, hi⟩, hw, rfl⟩ := step_next_of_runs runs ht
  have effect := effect_of_exec hw
  have command := decodeCommand_isCommand hi
  have word := commandWord_of_decodeCommand hi
  have masked_w : w.masked = true := by
    obtain masked | isMask := masked
    · exact effect.keeps_masked (by rintro rfl; exact notUnmask word.symm) masked
    · obtain rfl : .mask = i := Except.ok.inj (isMask ▸ hi)
      rw [exec_mask_next.mp hw]
      rfl
  obtain ⟨store, kept⟩ := cycleEnd_store_kept (s0 := popInput s) effect command (.inl masked_w)
  refine ⟨store, by rw [cycleEnd_masked, masked_w], fun notClear => ?_, fun isClear => ?_⟩
  · exact kept.trans (effect.cursor_of_ne_clear command (by rintro rfl; exact notClear word.symm))
  · obtain rfl : .clear = i := Except.ok.inj (isClear ▸ hi)
    rw [kept, exec_clear_next.mp hw]
    rfl

end Sys2Proof.Proofs
end

section
/-! PROOF. The reading commands have no side effect, and one repeated answers the same (spec/20_memory.md
R54). -/

namespace Sys2Proof.Proofs

open Sys2Proof.Machine Sys2Proof.Safety

theorem isCommand_of_isRead {i : Instr} (h : isRead i = true) : i.isCommand = true := by
  cases i with
  | rdbuf | rdreg | maprow | segment | hilite => rfl
  | nop | cfgper | start | mask | unmask | clear | completion | edgeA | edgeB => cases h

/-- A reading command that completes only answers. -/
theorem exec_of_isRead {i : Instr} {s t : State} (read : isRead i = true) (h : exec i s = .next t) :
    ∃ v, t = respond v s := by
  cases effect_of_exec h with
  | answer v => exact ⟨v, rfl⟩
  | period | start | mask | unmask | clear | completion | advance | confirm => cases read

theorem sameButResponse_of_isRead {i : Instr} {s t : State} (read : isRead i = true)
    (h : exec i s = .next t) : SameButResponse s t := by
  obtain ⟨v, rfl⟩ := exec_of_isRead read h
  simp [SameButResponse, SameStore, SameCursorMask, SameLatch, SameClock, SamePins, SameMenu, SameRest,
    readCell]

theorem sameVisible_of_sameButResponse {s t : State} (h : SameButResponse s t) : SameVisible s t := by
  obtain ⟨store, cursorMask, -, ⟨period, running, -⟩, -, menu, range, -, -, -, -, cfg, -⟩ := h
  exact ⟨store, cursorMask, period, running, menu, range, cfg⟩

/-- R180: a pin that keeps its level makes no edge. -/
theorem edgeSeen_same (pol : Polarity) (level : Bool) : edgeSeen pol level level = false := by
  cases pol <;> cases level <;> rfl

/-- A cycle without an append and without a pin change, in which phase 4 finds `RANGE` as R42 (d) has it,
leaves the visible state that its command left. -/
theorem sameVisible_cycleEnd {r : CycleRecord} {s0 w : State} (noAppend : NoAppend r w)
    (pinA : r.pinA = w.prevA) (pinB : r.pinB = w.prevB)
    (range : 1 ≤ w.selector → w.range = onehot (w.selector - 1)) :
    SameVisible w (cycleEnd r s0 w) := by
  obtain ⟨buf, cursor⟩ := afterCompletion_store_kept noAppend
  have selector : (cycleEnd r s0 w).selector = w.selector := by
    simp [cycleEnd_selector, pinA, edgeSeen_same]
  have view : (cycleEnd r s0 w).view = w.view := by
    simp [cycleEnd_view, pinB, edgeSeen_same]
  refine ⟨readCell_congr (by rw [cycleEnd_buf, buf]) (by simp),
    ⟨by rw [cycleEnd_cursor, cursor], by simp⟩, by simp, by simp, ⟨selector, view⟩, ?_, by simp⟩
  rw [cycleEnd_range, selector]
  split
  next selected => exact (range selected.1).symm
  next => rfl

theorem sameVisible_trans {s t u : State} (h : SameVisible s t) (h' : SameVisible t u) :
    SameVisible s u := by
  obtain ⟨store, ⟨cursor, masked⟩, period, running, ⟨selector, view⟩, range, cfg⟩ := h
  obtain ⟨store', ⟨cursor', masked'⟩, period', running', ⟨selector', view'⟩, range', cfg'⟩ := h'
  exact ⟨fun a => (store' a).trans (store a), ⟨cursor'.trans cursor, masked'.trans masked⟩,
    period'.trans period, running'.trans running, ⟨selector'.trans selector, view'.trans view⟩,
    range'.trans range, cfg'.trans cfg⟩

/-- In a state of both invariants, a read's cycle without event leaves the visible state it began with. -/
theorem sameVisible_of_read_cycle {r : CycleRecord} {i : Instr} {s s0 w : State} (inv : Inv s)
    (store : StoreInv s) (read : isRead i = true) (hw : exec i (popInput s) = .next w)
    (noSample : r.adcValid = false) (pinA : r.pinA = s.prevA) (pinB : r.pinB = s.prevB) :
    SameVisible (popInput s) (cycleEnd r s0 w) := by
  refine sameVisible_trans (sameVisible_of_sameButResponse (sameButResponse_of_isRead read hw)) ?_
  obtain ⟨v, rfl⟩ := exec_of_isRead read hw
  refine sameVisible_cycleEnd ?_ pinA pinB inv.range_selected
  cases masked : s.masked with
  | true => exact .inl masked
  | false => exact .inr (.inr ⟨noSample, store.latch_idle (.inr masked)⟩)

/-- R54: the same read again, in the next cycle, completes with the same answer. -/
theorem read_repeated {r : CycleRecord} {i : Instr} {s t : State} (inv : Inv s) (store : StoreInv s)
    (issues : Issues s r i) (read : isRead i = true) (noSample : r.adcValid = false)
    (pinA : r.pinA = s.prevA) (pinB : r.pinB = s.prevB) (ht : step s = .next t) (again : Issues t r i) :
    ∃ u, step t = .next u ∧ u.out.resp = t.out.resp := by
  rw [step_of_issues issues, andThen_eq_next] at ht
  obtain ⟨w, hw, ht⟩ := ht
  obtain rfl := Host.Outcome.next.inj ht
  have visible : SameVisible (popInput s) (popInput (cycleEnd r (popInput s) w)) :=
    sameVisible_of_read_cycle inv store read hw noSample pinA pinB
  obtain ⟨w', hw', resp, -⟩ := exec_of_sameVisible (isCommand_of_isRead read) visible hw
  refine ⟨_, by rw [step_of_issues again, hw']; rfl, ?_⟩
  rw [cycleEnd_resp, cycleEnd_resp, resp]

/-- R140, R141: the completion alone is phase 2 of a cycle that has it. -/
theorem completed_cursor_of_accepted {s : State} (d : Byte) (unmasked : s.masked = false)
    (room : s.cursor ≤ s.cfg.width) : (completed d s).cursor = s.cursor + 1 :=
  (afterCompletion_accepted (r := eventRecord true d false false) rfl unmasked
    (not_full_iff.mpr room)).2

/-- Settles O35: a read only answers, and what it answers is determined by the visible state, which it and
the phases after it leave alone. -/
theorem readsHaveNoSideEffect : Obligations.ReadsHaveNoSideEffect := by
  refine ⟨fun s t i read ht => ?_, fun _ _ _ _ => read_repeated, fun s t d unmasked room ht => ?_,
    fun s t ht => ?_⟩
  · have same := sameButResponse_of_isRead read ht
    obtain ⟨u, hu, resp, -⟩ :=
      exec_of_sameVisible (isCommand_of_isRead read) (sameVisible_of_sameButResponse same) ht
    exact ⟨same, u, hu, resp.symm, sameButResponse_of_isRead read hu⟩
  · obtain rfl := Host.Outcome.next.inj ((exec_completion d s).symm.trans ht)
    exact completed_cursor_of_accepted d unmasked room
  · obtain rfl := exec_clear_next.mp ht
    exact ⟨rfl, fun _ => rfl⟩

end Sys2Proof.Proofs
end

section
/-! PROOF. Encodings read back (spec/30_encoding.md R72, R75 to R79, R82): commands, cycle records, and the
operations of the opcode table. -/

namespace Sys2Proof.Proofs

/-! ## Command words -/

theorem sampleOperand_setWidth (d : Byte) : sampleOperand (d.setWidth 16) = .ok (.maprow d) :=
  sampleOperand_ok.mpr ⟨by ext i; simp, by
    rw [BitVec.extractLsb'_setWidth_of_le (by decide), BitVec.extractLsb'_eq_self]⟩

/-- R76: the word of a command decodes to it. -/
theorem decodeCommand_commandWord {i : Instr} (command : i.isCommand = true) :
    decodeCommand (commandWord i) = .ok i := by
  cases i with
  | nop | start | mask | unmask | clear => rfl
  | cfgper m | rdbuf m | rdreg m | segment m | hilite m => exact decodeCommand_makeWord m (by decide)
  | maprow d => exact (decodeCommand_makeWord _ (by decide)).trans (sampleOperand_setWidth d)
  | completion | edgeA | edgeB => cases command

/-- Settles O2: only commands are decoded, and each has the word it was decoded from. -/
theorem commandWordHasOneSpelling : Obligations.CommandWordHasOneSpelling :=
  fun _ _ h => ⟨decodeCommand_isCommand h, commandWord_of_decodeCommand h⟩

/-! ## Cycle records -/

/-- R72: which words are records, and the fields of one. -/
theorem decodeRecord_ok {w : Long} {r : CycleRecord} :
    decodeRecord w = .ok r ↔
      w.extractLsb' 43 21 = 0#21 ∧
        { cmd := w.extractLsb' 0 32, adcData := w.extractLsb' 32 8, adcValid := w.getLsbD 40,
          pinA := w.getLsbD 41, pinB := w.getLsbD 42 } = r := by
  unfold decodeRecord
  split <;> simp [*]

theorem decodeRecord_error {w : Long} :
    decodeRecord w = .error .highBits ↔ w.extractLsb' 43 21 ≠ 0#21 := by
  unfold decodeRecord
  split <;> simp [*]

/-- Two neighbouring fields of a word, each in its place, are one field of it. -/
theorem atLong_or_neighbour (w : Long) {lo mid n m len : Nat} (hmid : lo + n = mid) (hlen : n + m = len) :
    atLong lo (w.extractLsb' lo n) ||| atLong mid (w.extractLsb' mid m)
      = atLong lo (w.extractLsb' lo len) := by
  subst hmid hlen
  apply BitVec.eq_of_getLsbD_eq
  intro i hi
  simp only [BitVec.getLsbD_or, atLong_getLsbD, BitVec.getLsbD_extractLsb', hi]
  obtain below | ⟨inLow, inLow'⟩ | inHigh : i < lo ∨ (lo ≤ i ∧ i < lo + n) ∨ lo + n ≤ i := by omega
  · simp [show ¬ lo ≤ i by omega, show ¬ lo + n ≤ i by omega]
  · simp [inLow, show i - lo < n by omega, show ¬ lo + n ≤ i by omega, show i - lo < n + m by omega]
  · simp [inHigh, show lo ≤ i by omega, show ¬ i - lo < n by omega,
      show lo + n + (i - (lo + n)) = lo + (i - lo) by omega,
      show i - (lo + n) < m ↔ i - lo < n + m by omega]

theorem ofBool_getLsbD (w : Long) (i : Nat) : BitVec.ofBool (w.getLsbD i) = w.extractLsb' i 1 := by
  ext j hj
  obtain rfl : j = 0 := by omega
  simp

/-- R72: a record's fields and its bits 63:43, which are zero, make up the word. -/
theorem encodeRecord_of_decodeRecord {w : Long} {r : CycleRecord} (h : decodeRecord w = .ok r) :
    encodeRecord r = w := by
  obtain ⟨high, rfl⟩ := decodeRecord_ok.mp h
  simp only [encodeRecord, ofBool_getLsbD]
  rw [atLong_or_neighbour w (mid := 32) (len := 40) rfl rfl,
    atLong_or_neighbour w (mid := 40) (len := 41) rfl rfl,
    atLong_or_neighbour w (mid := 41) (len := 42) rfl rfl,
    atLong_or_neighbour w (mid := 42) (len := 43) rfl rfl]
  have whole := atLong_or_neighbour w (lo := 0) (mid := 43) (n := 43) (m := 21) (len := 64) rfl rfl
  rw [high] at whole
  simpa [atLong] using whole

/-- Settles O5: the fields are disjoint and, with bits 63:43, all of the word. -/
theorem recordRoundTrip : Obligations.RecordRoundTrip :=
  ⟨decodeRecord_encodeRecord, fun _ _ => encodeRecord_of_decodeRecord, fun _ => decodeRecord_error⟩

/-! ## Operations of the opcode table -/

/-- R82: a record that selects events is read as the first of them. -/
theorem decodeCyc64_of_event {r : CycleRecord} {i : Instr} {rest : List Instr}
    (event : recordEvents .rising .rising false false r = i :: rest) :
    decodeCyc64 (encodeRecord r) = .ok i := by
  simp [decodeCyc64, decodeRecord_encodeRecord, event]

theorem decodeCmd32_ok {w : Word} {i : Instr} : decodeCmd32 w = .ok i ↔ decodeCommand w = .ok i := by
  unfold decodeCmd32
  cases decodeCommand w <;> simp

theorem encode_of_isCommand {i : Instr} (command : i.isCommand = true) :
    encode i = .cmd32 (commandWord i) := by
  cases i with
  | completion | edgeA | edgeB => cases command
  | nop | cfgper | start | mask | unmask | clear | rdbuf | rdreg | maprow | segment | hilite => rfl

theorem decode_encode_of_isCommand {i : Instr} (command : i.isCommand = true) :
    decode (encode i) = .ok i := by
  rw [encode_of_isCommand command]
  exact decodeCmd32_ok.mpr (decodeCommand_commandWord command)

/-- Settles O1: a command's word decodes to it, and an event's record selects that event alone. -/
theorem decodeOfEncode : Obligations.DecodeOfEncode := by
  intro i
  cases i with
  | completion d => exact decodeCyc64_of_event (r := eventRecord true d false false) rfl
  | edgeA => exact decodeCyc64_of_event (r := eventRecord false 0#8 true false) rfl
  | edgeB => exact decodeCyc64_of_event (r := eventRecord false 0#8 false true) rfl
  | nop | cfgper | start | mask | unmask | clear | rdbuf | rdreg | maprow | segment | hilite =>
    exact decode_encode_of_isCommand rfl

/-- Settles O4: each command word written out is the word of its command; the reserved one and the events'
records are read bit by bit. -/
theorem decodesWrittenWords : Obligations.DecodesWrittenWords :=
  ⟨decodeCommand_commandWord (i := .nop) rfl, decodeCommand_commandWord (i := .cfgper 4#16) rfl,
    decodeCommand_commandWord (i := .rdbuf 2#16) rfl, decodeCommand_commandWord (i := .rdreg 4#16) rfl,
    decodeCommand_commandWord (i := .maprow 0x80#8) rfl,
    decodeCommand_commandWord (i := .segment 0#16) rfl,
    decodeCommand_commandWord (i := .hilite 1#16) rfl, rfl, rfl, rfl, rfl⟩

end Sys2Proof.Proofs
end

section
/-! PROOF. The stimulus language's assembly (spec/30_encoding.md R84, R85). -/

namespace Sys2Proof.Proofs

open Sys2Proof.Machine Sys2Proof.Safety

/-! ## The fields of an encoded record -/

theorem encodeRecord_fields (r : CycleRecord) :
    { cmd := (encodeRecord r).extractLsb' 0 32, adcData := (encodeRecord r).extractLsb' 32 8,
      adcValid := (encodeRecord r).getLsbD 40, pinA := (encodeRecord r).getLsbD 41,
      pinB := (encodeRecord r).getLsbD 42 } = r :=
  (decodeRecord_ok.mp (decodeRecord_encodeRecord r)).2

theorem encodeRecord_cmd (r : CycleRecord) : (encodeRecord r).extractLsb' 0 32 = r.cmd :=
  congrArg CycleRecord.cmd (encodeRecord_fields r)

theorem encodeRecord_adcData (r : CycleRecord) : (encodeRecord r).extractLsb' 32 8 = r.adcData :=
  congrArg CycleRecord.adcData (encodeRecord_fields r)

theorem encodeRecord_adcValid (r : CycleRecord) : (encodeRecord r).getLsbD 40 = r.adcValid :=
  congrArg CycleRecord.adcValid (encodeRecord_fields r)

theorem encodeRecord_pinA (r : CycleRecord) : (encodeRecord r).getLsbD 41 = r.pinA :=
  congrArg CycleRecord.pinA (encodeRecord_fields r)

theorem encodeRecord_pinB (r : CycleRecord) : (encodeRecord r).getLsbD 42 = r.pinB :=
  congrArg CycleRecord.pinB (encodeRecord_fields r)

/-- A field of `CMD` is the record's field at the same bits. -/
theorem encodeRecord_cmd_field (r : CycleRecord) {lo n : Nat} (h : lo + n ≤ 32) :
    (encodeRecord r).extractLsb' lo n = r.cmd.extractLsb' lo n := by
  rw [← encodeRecord_cmd, BitVec.extractLsb'_extractLsb'_of_le h]

/-! ## One line -/

/-- The input that a line assembles to, after pin levels `a` and `b`. -/
def lineInput (a b : Bool) (l : Line) : CycleInput :=
  { rstN := true, word := encodeRecord (lineRecord a b l) }

theorem lineInput_command (a b : Bool) (l : Line) :
    (lineInput a b l).word.extractLsb' 24 8 = l.opc ∧ (lineInput a b l).word.extractLsb' 16 8 = 0#8
      ∧ (lineInput a b l).word.extractLsb' 0 16 = l.imm :=
  ⟨(encodeRecord_cmd_field _ (by decide)).trans (opcField_makeWord l.opc l.imm),
    (encodeRecord_cmd_field _ (by decide)).trans (rsvField_makeWord l.opc l.imm),
    (encodeRecord_cmd_field _ (by decide)).trans (immField_makeWord l.opc l.imm)⟩

theorem lineInput_pinA (a b : Bool) (l : Line) : (lineInput a b l).word.getLsbD 41 = l.pinA.getD a :=
  encodeRecord_pinA _

theorem lineInput_pinB (a b : Bool) (l : Line) : (lineInput a b l).word.getLsbD 42 = l.pinB.getD b :=
  encodeRecord_pinB _

/-! ## A program, line by line -/

/-- R84: a line's pin levels are the next line's levels before it. -/
theorem assembleFrom_cons (a b : Bool) (l : Line) (ls : List Line) :
    assembleFrom a b (l :: ls)
      = lineInput a b l :: assembleFrom (l.pinA.getD a) (l.pinB.getD b) ls := rfl

theorem length_assembleFrom (a b : Bool) (ls : List Line) : (assembleFrom a b ls).length = ls.length := by
  induction ls generalizing a b with
  | nil => rfl
  | cons l ls ih => rw [assembleFrom_cons, List.length_cons, ih, List.length_cons]

/-- The input of line `k` is what that line assembles to, after some pin levels. -/
theorem assembleFrom_getElem? {a b : Bool} {ls : List Line} {k : Nat} {x : CycleInput}
    (hx : (assembleFrom a b ls)[k]? = some x) :
    ∃ a' b' l, ls[k]? = some l ∧ x = lineInput a' b' l := by
  induction ls generalizing a b k with
  | nil => cases hx
  | cons l ls ih =>
    cases k with
    | zero => exact ⟨a, b, l, rfl, (Option.some.inj hx).symm⟩
    | succ k => exact ih hx

theorem assembleFrom_getElem?_zero {a b : Bool} {ls : List Line} {l : Line} {x : CycleInput}
    (hx : (assembleFrom a b ls)[0]? = some x) (hl : ls[0]? = some l) : x = lineInput a b l := by
  cases ls with
  | nil => cases hl
  | cons l₀ ls =>
    obtain rfl := Option.some.inj hl
    exact (Option.some.inj hx).symm

/-- The levels after which a line but the first is assembled are those of the input before it. -/
theorem assembleFrom_getElem?_succ {a b : Bool} {ls : List Line} {k : Nat} {l : Line} {x y : CycleInput}
    (hx : (assembleFrom a b ls)[k]? = some x) (hy : (assembleFrom a b ls)[k + 1]? = some y)
    (hl : ls[k + 1]? = some l) : y = lineInput (x.word.getLsbD 41) (x.word.getLsbD 42) l := by
  induction ls generalizing a b k with
  | nil => cases hl
  | cons l₀ ls ih =>
    cases k with
    | succ k => exact ih hx hy hl
    | zero =>
      obtain rfl := assembleFrom_getElem?_zero hx rfl
      rw [lineInput_pinA, lineInput_pinB]
      exact assembleFrom_getElem?_zero hy hl

/-- R85: whatever the levels before it, a bounce is `n` times low and back high. -/
theorem pinLevels_assembleFrom_bounceA (a b : Bool) (n : Nat) :
    pinLevels 41 (assembleFrom a b (bounceA n)) = bounceLevels n := by
  induction n generalizing a b with
  | zero => rfl
  | succ n ih =>
    rw [bounceA, pressA, List.cons_append, List.cons_append, List.nil_append, assembleFrom_cons,
      assembleFrom_cons, pinLevels, pinLevels, lineInput_pinA, lineInput_pinA, ih]
    rfl

/-- Settles O7: each input is its line's, after the levels of the input before it. -/
theorem stimulusAssembles : Obligations.StimulusAssembles := by
  refine ⟨length_assembleFrom true true, fun ls x hx => ?_, fun ls k l x hx hl => ?_,
    fun ls l x hx hl => ?_, fun ls k l x y hx hy hl => ?_, pinLevels_assembleFrom_bounceA true true⟩
  · obtain ⟨k, hk⟩ := List.getElem?_of_mem hx
    obtain ⟨a, b, l, -, rfl⟩ := assembleFrom_getElem? hk
    exact ⟨rfl, _, decodeRecord_encodeRecord _⟩
  · obtain ⟨a, b, l', hl', rfl⟩ := assembleFrom_getElem? hx
    obtain rfl := Option.some.inj (hl'.symm.trans hl)
    obtain ⟨opc, rsv, imm⟩ := lineInput_command a b l'
    exact ⟨opc, rsv, imm, encodeRecord_adcValid _, encodeRecord_adcData _⟩
  · obtain rfl := assembleFrom_getElem?_zero hx hl
    exact ⟨lineInput_pinA true true l, lineInput_pinB true true l⟩
  · obtain rfl := assembleFrom_getElem?_succ hx hy hl
    exact ⟨lineInput_pinA _ _ l, lineInput_pinB _ _ l⟩

end Sys2Proof.Proofs
end

section
/-! PROOF. When an operation and a cycle complete (spec/30_encoding.md R79, spec/60_exceptions.md R232, R234,
R253). -/

namespace Sys2Proof.Proofs

open Sys2Proof.Machine Sys2Proof.Safety

theorem exec_start_completes_iff {s : State} :
    (∃ t, exec .start s = .next t) ↔ s.running = true ∨ s.period ≠ 0#16 := by
  simp only [exec_start_next]
  cases s.running <;> simp

theorem exec_rdreg_completes_iff {s : State} {idx : Half} :
    (∃ t, exec (.rdreg idx) s = .next t) ↔ idx.toNat ≤ 4 := by
  simp [exec_rdreg_next, ← registerValue_isSome (s := s), Option.isSome_iff_exists]

/-- Each operation's condition to complete is its operand's range, and for START also the clock's state. -/
theorem exec_completes_iff {s : State} {i : Instr} :
    (∃ t, exec i s = .next t) ↔ legalCommand s i = true := by
  cases i with
  | nop => simp [exec_nop_next, legalCommand, Instr.wellFormed]
  | cfgper p => simp [exec_cfgper_next, legalCommand, Instr.wellFormed]
  | start => simp [exec_start_completes_iff, legalCommand, Instr.wellFormed]
  | mask => simp [exec_mask_next, legalCommand, Instr.wellFormed]
  | unmask => simp [exec_unmask_next, legalCommand, Instr.wellFormed]
  | clear => simp [exec_clear_next, legalCommand, Instr.wellFormed]
  | rdbuf a => simp [exec_rdbuf_next, legalCommand, Instr.wellFormed]
  | rdreg idx => simp [exec_rdreg_completes_iff, legalCommand, Instr.wellFormed]
  | maprow d => simp [exec_maprow_next, legalCommand, Instr.wellFormed]
  | segment k => simp [exec_segment_next, legalCommand, Instr.wellFormed]
  | hilite r => simp [exec_hilite_next, legalCommand, Instr.wellFormed]
  | completion d => simp [exec_completion, legalCommand, Instr.wellFormed]
  | edgeA => simp [exec_edgeA, legalCommand, Instr.wellFormed]
  | edgeB => simp [exec_edgeB, legalCommand, Instr.wellFormed]

/-- R232: what an operation raises instead of completing is a fault. -/
theorem exec_ne_refused (i : Instr) (s : State) (r : Refusal) : exec i s ≠ .refused r := by
  cases i with
  | nop | mask | unmask | clear | maprow | edgeA | edgeB => nofun
  | completion d => rw [exec_completion]; nofun
  | cfgper | rdbuf | segment | hilite =>
    simp only [exec, execCfgper, execRdbuf, execSegment, execHilite, raiseFault]
    split <;> nofun
  | start =>
    simp only [exec, execStart, raiseFault]
    split_ifs <;> nofun
  | rdreg idx =>
    simp only [exec, execRdreg, raiseFault]
    split <;> nofun

theorem legalCommand_of_event {s : State} {i : Instr} (event : i.isCommand = false) :
    legalCommand s i = true := by
  cases i with
  | completion | edgeA | edgeB => rfl
  | nop | cfgper | start | mask | unmask | clear | rdbuf | rdreg | maprow | segment | hilite => cases event

/-- Settles O36: operation by operation; no arm refuses. -/
theorem operationsCompleteWhenLegal : Obligations.OperationsCompleteWhenLegal :=
  fun s i => ⟨exec_completes_iff, exec_ne_refused i s, legalCommand_of_event⟩

/-- A cycle's outcome is that of its command, for the phases after it never stop. -/
theorem step_completes_iff_exec {s : State} {r : CycleRecord} {i : Instr} (issues : Issues s r i) :
    (∃ t, step s = .next t) ↔ ∃ t, exec i (popInput s) = .next t := by
  simp [step_of_issues issues, andThen_eq_next]

/-- R79, R232: legality reads the parameters and the clock, not the inputs to come. -/
theorem step_completes_iff_legal {s : State} {r : CycleRecord} {i : Instr} (issues : Issues s r i) :
    (∃ t, step s = .next t) ↔ legalCommand s i = true :=
  (step_completes_iff_exec issues).trans exec_completes_iff

theorem step_ne_refused_of_runs {s : State} {r : CycleRecord} (runs : Runs s r) (f : Refusal) :
    step s ≠ .refused f := by
  cases decoded : decodeCommand r.cmd with
  | error e => rw [step_of_bad_word runs decoded]; nofun
  | ok i =>
    rw [step_of_issues ⟨runs, decoded⟩]
    cases outcome : exec i (popInput s) with
    | next | fault => nofun
    | refused => exact absurd outcome (exec_ne_refused _ _ _)

/-- Settles O39: a word that spells no command faults, and one that does completes as its command. -/
theorem cycleStopsOnlyOnItsCommand : Obligations.CycleStopsOnlyOnItsCommand := by
  refine fun s r runs => ⟨⟨fun ⟨t, ht⟩ => ?_, fun ⟨i, decoded, legal⟩ => ?_⟩,
    step_ne_refused_of_runs runs⟩
  · obtain ⟨i, -, issues, -, -⟩ := step_next_of_runs runs ht
    exact ⟨i, issues.2, (step_completes_iff_legal issues).mp ⟨t, ht⟩⟩
  · exact (step_completes_iff_legal ⟨runs, decoded⟩).mpr legal

end Sys2Proof.Proofs
end

section
/-! PROOF. The inputs of the next cycle: the free ones of a cycle that none are listed for, and those placed
for an operation of the opcode table (log entries 5, 6, 7). -/

namespace Sys2Proof.Proofs

open Sys2Proof.Machine Sys2Proof.Safety

/-! ## A cycle that no input is listed for -/

/-- A field of a value placed at bit `lo`, at or above that bit. -/
theorem extractLsb'_atLong {n : Nat} (v : BitVec n) {lo k m : Nat} (h : lo + k + m ≤ 64) :
    (atLong lo v).extractLsb' (lo + k) m = v.extractLsb' k m := by
  apply BitVec.eq_of_getLsbD_eq
  intro i hi
  simp only [BitVec.getLsbD_extractLsb', atLong_getLsbD]
  simp [hi, show lo + k + i < 64 by omega, show lo ≤ lo + k + i by omega,
    show lo + k + i - lo = k + i by omega]

/-- A field wholly below the value's place is zero. -/
theorem extractLsb'_atLong_below {n : Nat} (v : BitVec n) {lo k m : Nat} (h : k + m ≤ lo) :
    (atLong lo v).extractLsb' k m = 0#m := by
  apply BitVec.eq_of_getLsbD_eq
  intro i hi
  simp [show ¬ lo ≤ k + i by omega]

/-- R72: the eleven bits above the command word are a record's completion and pins. -/
theorem decodeRecord_atLong (v : BitVec 11) :
    decodeRecord (atLong 32 v) =
      .ok { cmd := 0#32, adcData := v.extractLsb' 0 8, adcValid := v.getLsbD 8, pinA := v.getLsbD 9,
            pinB := v.getLsbD 10 } := by
  refine decodeRecord_ok.mpr ⟨?_, ?_⟩
  · refine (extractLsb'_atLong v (k := 11) (by decide)).trans ?_
    ext i hi
    simp
  · have cmd : (atLong 32 v).extractLsb' 0 32 = 0#32 := extractLsb'_atLong_below v (by decide)
    have adcData : (atLong 32 v).extractLsb' 32 8 = v.extractLsb' 0 8 :=
      extractLsb'_atLong v (k := 0) (by decide)
    simp only [cmd, adcData, atLong_getLsbD]
    simp

/-- Settles O9: the free record's command word is 0, NOP's. -/
theorem unlistedCycleIsFree : Obligations.UnlistedCycleIsFree := by
  intro s noFault legal unlisted
  have input : nextInput s = { rstN := true, word := freeRecord s } := by simp [nextInput, unlisted]
  have command : decodeCommand 0#32 = .ok .nop := decodeCommand_commandWord (i := .nop) rfl
  unfold Issues Runs
  rw [input]
  exact ⟨_, ⟨⟨noFault, legal, rfl, decodeRecord_atLong _⟩, command⟩, rfl, rfl, rfl, rfl⟩

/-! ## A placed operation -/

theorem decodeTableWord_command {w : Nat} {i : Instr} :
    decodeTableWord 32 w = some i ↔ decodeCommand (BitVec.ofNat 32 w) = .ok i := by
  rw [← decodeCmd32_ok]
  simp only [decodeTableWord, decode, le_refl, if_true]
  cases decodeCmd32 (BitVec.ofNat 32 w) <;> simp

theorem decodeTableWord_record {w : Nat} {i : Instr} :
    decodeTableWord 64 w = some i ↔ decodeCyc64 (BitVec.ofNat 64 w) = .ok i := by
  simp only [decodeTableWord, decode, show ¬ 64 ≤ 32 by decide, if_false]
  cases decodeCyc64 (BitVec.ofNat 64 w) <;> simp

/-- An event is decoded from a record that selects it first. -/
theorem recordEvents_of_decodeCyc64 {w : Long} {i : Instr} (h : decodeCyc64 w = .ok i)
    (event : i.isCommand = false) :
    ∃ r rest, decodeRecord w = .ok r ∧ recordEvents .rising .rising false false r = i :: rest := by
  unfold decodeCyc64 at h
  split at h
  next => cases h
  next r decoded =>
    split at h
    next e rest events =>
      obtain rfl := Except.ok.inj h
      exact ⟨r, rest, decoded, events⟩
    next =>
      have command := decodeCommand_isCommand (decodeCmd32_ok.mp h)
      simp [event] at command

/-- R82: what selects a record's first event, against low histories. -/
theorem recordEvents_cons_cases {r : CycleRecord} {i : Instr} {rest : List Instr}
    (h : recordEvents .rising .rising false false r = i :: rest) :
    (r.adcValid = true ∧ i = .completion r.adcData) ∨
    (r.adcValid = false ∧ r.pinA = true ∧ i = .edgeA) ∨
    (r.adcValid = false ∧ r.pinA = false ∧ r.pinB = true ∧ i = .edgeB) := by
  cases valid : r.adcValid with
  | true => simp_all [recordEvents]
  | false =>
    cases pinA : r.pinA with
    | true => simp_all [recordEvents, edgeSeen]
    | false => cases pinB : r.pinB <;> simp_all [recordEvents, edgeSeen]

/-- The placed record is the next cycle's. -/
theorem placeEvent_runs {s : State} {w : Long} {r : CycleRecord} (noFault : s.fault = none)
    (legal : legalConfig s.cfg = true) (record : decodeRecord w = .ok r) : Runs (placeEvent w s) r := by
  unfold placeEvent
  split <;> exact ⟨noFault, legal, rfl, record⟩

/-- The pins' history is set to the record's levels, but that of the pin whose edge the record was placed
for. -/
theorem recordEvents_placeEvent (s : State) {w : Long} {r : CycleRecord} {i : Instr}
    (record : decodeRecord w = .ok r) (decoded : decodeCyc64 w = .ok i) (event : i.isCommand = false) :
    recordEvents .rising .rising (placeEvent w s).prevA (placeEvent w s).prevB r = [i] := by
  obtain ⟨r', rest, record', events⟩ := recordEvents_of_decodeCyc64 decoded event
  obtain rfl := Except.ok.inj (record.symm.trans record')
  obtain ⟨-, fields⟩ := decodeRecord_ok.mp record
  have pinA : w.getLsbD 41 = r.pinA := congrArg CycleRecord.pinA fields
  have pinB : w.getLsbD 42 = r.pinB := congrArg CycleRecord.pinB fields
  obtain ⟨valid, rfl⟩ | ⟨invalid, high, rfl⟩ | ⟨invalid, low, high, rfl⟩ :=
    recordEvents_cons_cases events
  · simp only [placeEvent, decoded, pinA, pinB, samplePins_prevA, samplePins_prevB]
    simp [recordEvents, valid, edgeSeen_same]
  · simp only [placeEvent, decoded, pinA, pinB, samplePins_prevA, samplePins_prevB]
    simp [recordEvents, invalid, high, edgeSeen]
  · simp only [placeEvent, decoded, pinA, pinB, samplePins_prevA, samplePins_prevB]
    simp [recordEvents, invalid, low, high, edgeSeen]

/-- Settles O10: a command's record keeps the pins' levels, and an event's is placed after the levels that
single it out. -/
theorem placedWordRuns : Obligations.PlacedWordRuns := by
  refine fun s w i noFault legal => ⟨fun command => ?_, fun record event polA polB => ?_⟩
  · refine ⟨_, ⟨⟨noFault, legal, rfl, decodeRecord_encodeRecord _⟩, decodeTableWord_command.mp command⟩, ?_⟩
    show recordEvents _ _ s.prevA s.prevB _ = []
    simp [recordEvents, edgeSeen_same]
  · rw [polA, polB]
    have decoded := decodeTableWord_record.mp record
    obtain ⟨r, -, record, -⟩ := recordEvents_of_decodeCyc64 decoded event
    exact ⟨r, placeEvent_runs noFault legal record, recordEvents_placeEvent s record decoded event⟩

end Sys2Proof.Proofs
end

section
/-! PROOF. Which check of a command word fails (spec/40_cycle_and_port.md R101, R105; spec/30_encoding.md
R78). -/

namespace Sys2Proof.Proofs

open Sys2Proof.Machine Sys2Proof.Safety

theorem noOperand_error {m : Half} {i : Instr} {e : CommandError} :
    noOperand m i = .error e ↔ m ≠ 0#16 ∧ e = .rsvBits := by
  by_cases h : m = 0#16 <;> simp [noOperand, h, eq_comm]

theorem sampleOperand_error {m : Half} {e : CommandError} :
    sampleOperand m = .error e ↔ m.extractLsb' 8 8 ≠ 0#8 ∧ e = .rsvBits := by
  by_cases h : m.extractLsb' 8 8 = 0#8 <;> simp [sampleOperand, h, eq_comm]

/-- R78: what a legal opcode leaves to check are the bits its command does not use; the rows in the
opcodes' order. -/
theorem selectCommand_error {opc : Byte} {imm : Half} {e : CommandError} (range : opc.toNat ≤ 0x0A) :
    selectCommand opc imm = .error e ↔
      ((opc.toNat ∈ [0, 2, 3, 4, 5] ∧ imm ≠ 0#16) ∨ (opc.toNat = 8 ∧ imm.extractLsb' 8 8 ≠ 0#8))
        ∧ e = .rsvBits := by
  obtain ⟨n, hn, rfl⟩ : ∃ n ≤ 0x0A, opc = BitVec.ofNat 8 n := ⟨opc.toNat, range, by simp⟩
  clear range
  interval_cases n
  · exact noOperand_error.trans (by simp)
  · simp [selectCommand]
  · exact noOperand_error.trans (by simp)
  · exact noOperand_error.trans (by simp)
  · exact noOperand_error.trans (by simp)
  · exact noOperand_error.trans (by simp)
  · simp [selectCommand]
  · simp [selectCommand]
  · exact sampleOperand_error.trans (by simp)
  · simp [selectCommand]
  · simp [selectCommand]

/-! ## The three outcomes of R101's checks -/

section
variable {w : Word}

theorem decodeCommand_of_reserved (reserved : 0x0A < (opcField w).toNat) :
    decodeCommand w = .error .opcode :=
  if_pos reserved

theorem decodeCommand_of_rsv (legal : (opcField w).toNat ≤ 0x0A) (rsv : rsvField w ≠ 0#8) :
    decodeCommand w = .error .rsvBits :=
  (if_neg (Nat.not_lt_of_le legal)).trans (if_pos rsv)

theorem decodeCommand_of_fields (legal : (opcField w).toNat ≤ 0x0A) (rsv : rsvField w = 0#8) :
    decodeCommand w = selectCommand (opcField w) (immField w) :=
  (if_neg (Nat.not_lt_of_le legal)).trans (if_neg (not_not.mpr rsv))

end

/-- Settles O3: by the first check that fails. -/
theorem commandCheckOrder : Obligations.CommandCheckOrder := by
  intro w
  have sample : w.extractLsb' 8 8 = (immField w).extractLsb' 8 8 :=
    (BitVec.extractLsb'_extractLsb'_of_le (by decide)).symm
  rw [sample, ← opcField, ← rsvField, ← immField]
  by_cases reserved : 0x0A < (opcField w).toNat
  · simp [decodeCommand_of_reserved reserved, reserved]
  · have legal : (opcField w).toNat ≤ 0x0A := Nat.le_of_not_lt reserved
    by_cases rsv : rsvField w = 0#8
    · simp [decodeCommand_of_fields legal rsv, selectCommand_error legal, legal, rsv]
    · simp [decodeCommand_of_rsv legal rsv, legal, rsv]

/-- Settles O11: the opcode's check comes first, so no other field is read. -/
theorem reservedOpcodeFaults : Obligations.ReservedOpcodeFaults :=
  fun _ r runs reserved => step_of_bad_word runs ((commandCheckOrder r.cmd).1.mpr reserved)

end Sys2Proof.Proofs
end

section
/-! PROOF. The two commands of no sub-unit (spec/40_cycle_and_port.md R103, R104). -/

namespace Sys2Proof.Proofs

open Sys2Proof.Machine Sys2Proof.Safety

theorem sameButResponse_respond (v : Long) (s : State) : SameButResponse s (respond v s) :=
  ⟨fun _ => rfl, ⟨rfl, rfl⟩, ⟨rfl, rfl⟩, ⟨rfl, rfl, rfl⟩, ⟨rfl, rfl⟩, ⟨rfl, rfl⟩,
    ⟨rfl, rfl, rfl, rfl, rfl, rfl, rfl, rfl, rfl, rfl⟩⟩

/-- Settles O22: NOP only answers. -/
theorem nopCompletes : Obligations.NopCompletes :=
  fun s => ⟨_, exec_nop_next.mpr rfl, rfl, sameButResponse_respond 0#64 s⟩

/-! ## The five registers -/

/-- R10: zero-extension keeps the number. -/
theorem zextWord_toNat (w : Word) : (zextWord w).toNat = w.toNat :=
  BitVec.toNat_setWidth_of_le (by decide)

theorem zextWord_getLsbD (w : Word) (i : Nat) : (zextWord w).getLsbD i = w.getLsbD i := by
  simp only [zextWord, BitVec.getLsbD_setWidth, Bool.and_eq_right_iff_imp, decide_eq_true_eq]
  intro h
  have := BitVec.lt_of_getLsbD h
  omega

theorem viewBit_eq_decide (v : View) : viewBit v = decide (v = .menu) := by
  cases v <;> rfl

/-- R38: STATUS as an answer, bit by bit. -/
theorem status_answer (s : State) :
    (zextWord (statusWord s)).getLsbD 0 = full s ∧ (zextWord (statusWord s)).getLsbD 1 = s.masked
      ∧ (zextWord (statusWord s)).getLsbD 2 = s.running
      ∧ (zextWord (statusWord s)).getLsbD 3 = decide (s.view = .menu)
      ∧ (zextWord (statusWord s)).extractLsb' 4 60 = 0#60 := by
  simp only [← viewBit_eq_decide, zextWord_getLsbD, statusWord, BitVec.getLsbD_or, atWord_getLsbD]
  refine ⟨by simp, by simp, by simp, by simp, BitVec.eq_of_getLsbD_eq fun i _ => ?_⟩
  simp [zextWord_getLsbD, show 4 + i - 2 ≠ 0 by omega, show 4 + i - 3 ≠ 0 by omega]

/-- R37: RDREG of a register answers it and leaves everything else. -/
theorem exec_rdreg_of_registerValue {s : State} {idx : Half} {v : Word}
    (value : registerValue s idx.toNat = some v) :
    exec (.rdreg idx) s = .next (respond (zextWord v) s) :=
  exec_rdreg_next.mpr ⟨v, value, rfl⟩

/-- R75: a command word is its opcode's byte and its immediate, zero-extended. -/
theorem makeWord_eq (opc : Byte) (imm : Half) : makeWord opc imm = atWord 24 opc ||| imm.setWidth 32 := by
  simp [makeWord, atWord]

theorem exec_rdreg_of_reserved {s : State} {idx : Half} (reserved : 4 < idx.toNat) :
    exec (.rdreg idx) s = .fault (.regIndex s.cycle (commandWord (.rdreg idx))) := by
  have noRegister : registerValue s idx.toNat = none :=
    Option.not_isSome_iff_eq_none.mp (mt registerValue_isSome.mp (Nat.not_le_of_lt reserved))
  simp [exec, execRdreg, noRegister, raiseFault]

/-- Settles O28: register by register; the bounds on `CURSOR` and `SELECTOR` keep their numbers whole. -/
theorem rdregReadsRegisters : Obligations.RdregReadsRegisters := by
  intro s
  refine ⟨?_, fun bound => ?_, ?_, fun bound => ?_, ?_, fun idx reserved => ?_⟩
  · obtain ⟨isFull, masked, running, view, zeros⟩ := status_answer s
    exact ⟨_, exec_rdreg_of_registerValue rfl, isFull, masked, running, view, zeros,
      sameButResponse_respond _ s⟩
  · refine ⟨_, exec_rdreg_of_registerValue rfl, ?_, sameButResponse_respond _ s⟩
    exact (zextWord_toNat _).trans (Nat.mod_eq_of_lt (by omega))
  · refine ⟨_, exec_rdreg_of_registerValue rfl, ?_, sameButResponse_respond _ s⟩
    exact (zextWord_toNat _).trans (BitVec.toNat_setWidth_of_le (by decide))
  · refine ⟨_, exec_rdreg_of_registerValue rfl, ?_, sameButResponse_respond _ s⟩
    exact (zextWord_toNat _).trans (Nat.mod_eq_of_lt (by omega))
  · exact ⟨_, exec_rdreg_of_registerValue rfl, zextWord_toNat _, sameButResponse_respond _ s⟩
  · rw [exec_rdreg_of_reserved reserved, commandWord, makeWord_eq]
    rfl

end Sys2Proof.Proofs
end

section
/-! PROOF. A cycle's phases in order, its outputs, and its command before its completion
(spec/40_cycle_and_port.md R100, R102). -/

namespace Sys2Proof.Proofs

open Sys2Proof.Machine Sys2Proof.Safety

theorem andThen_assoc (o : Result) (f g : State → Result) :
    andThen (andThen o f) g = andThen o (fun s => andThen (f s) g) := by
  cases o <;> rfl

/-- Settles O8: the model's phases, with the two edges of phase 3 in line with the others. -/
theorem stepRunsDecodedInstruction : Obligations.StepRunsDecodedInstruction := by
  intro s r i ⟨runs, decoded⟩
  rw [step_of_runs runs]
  simp only [commandCycle, decoded]
  refine congrArg (andThen _) (funext fun w => ?_)
  simp only [eventPhases, completionPhase, edgePhase, execWhen, andThen_assoc]
  rfl

/-- A cycle that answers a next state ends the one outcome of its command. -/
theorem eq_cycleEnd_of_step {s t w : State} {r : CycleRecord} {i : Instr} (issues : Issues s r i)
    (hw : exec i (popInput s) = .next w) (ht : step s = .next t) : t = cycleEnd r (popInput s) w := by
  rw [step_of_issues issues, hw] at ht
  exact (Host.Outcome.next.inj ht).symm

/-- R81: the commands that return nothing set `RESP` to 0. -/
theorem resp_of_answersNothing {i : Instr} {s t : State} (silent : answersNothing i = true)
    (h : exec i s = .next t) : t.out.resp = 0#64 := by
  cases i with
  | nop => rw [exec_nop_next.mp h]; rfl
  | cfgper p => obtain ⟨-, rfl⟩ := exec_cfgper_next.mp h; rfl
  | start => obtain ⟨-, rfl⟩ | ⟨-, -, rfl⟩ := exec_start_next.mp h <;> rfl
  | mask => rw [exec_mask_next.mp h]; rfl
  | unmask => rw [exec_unmask_next.mp h]; rfl
  | clear => rw [exec_clear_next.mp h]; rfl
  | rdbuf | rdreg | maprow | segment | hilite | completion | edgeA | edgeB => cases silent

/-- R122: when phase 5 sets `TRIG`. -/
theorem cycleEnd_trig_iff {r : CycleRecord} {s0 w : State} :
    (cycleEnd r s0 w).out.trig = true ↔ s0.running = true ∧ w.period.toNat ≤ w.count.toNat + 1 := by
  obtain ⟨stopped, -, trig⟩ | ⟨runs, reached, -, trig⟩ | ⟨-, below, -, trig⟩ := cycleEnd_clock r s0 w
  · simp [trig, stopped]
  · simp [trig, runs, reached]
  · simp [trig, below]

/-- Settles O41: the phases after the command leave its `RESP`, and the registered outputs are driven from
the cycle's start. -/
theorem outputsOfACycle : Obligations.OutputsOfACycle := by
  intro s t w r i issues hw ht
  obtain rfl := eq_cycleEnd_of_step issues hw ht
  exact ⟨cycleEnd_resp _ _ _, fun silent => (cycleEnd_resp _ _ _).trans (resp_of_answersNothing silent hw),
    cycleEnd_trig_iff, rfl, by simp [viewBit_eq_decide], rfl⟩

/-! ## The command before the completion -/

/-- R140, R141: a completion after a command that left the store unmasked and not full is appended at the
cursor that the command left. -/
theorem cycleEnd_appends {r : CycleRecord} {s0 w : State} (valid : r.adcValid = true)
    (unmasked : w.masked = false) (room : w.cursor ≤ w.cfg.width) :
    readCell (cycleEnd r s0 w) w.cursor = r.adcData ∧ (cycleEnd r s0 w).cursor = w.cursor + 1
      ∧ SameStoreBut w.cursor w (cycleEnd r s0 w) := by
  obtain ⟨buf, cursor⟩ := afterCompletion_accepted valid unmasked (not_full_iff.mpr room)
  have read (a : Nat) : readCell (cycleEnd r s0 w) a = readCell (storeCell w.cursor r.adcData w) a :=
    readCell_congr (s := storeCell w.cursor r.adcData w) ((cycleEnd_buf r s0 w).trans buf)
      (cycleEnd_epoch r s0 w) a
  refine ⟨?_, (cycleEnd_cursor r s0 w).trans cursor, fun b other => ?_⟩
  · rw [read, readCell_storeCell_same]
  · rw [read, readCell_storeCell_other _ _ other]

/-- A cycle that answers a next state and whose word is that of the command `i` ran `i`. -/
theorem exec_of_step_commandWord {s t : State} {r : CycleRecord} {i : Instr} (runs : Runs s r)
    (ht : step s = .next t) (command : i.isCommand = true) (word : r.cmd = commandWord i) :
    ∃ w, exec i (popInput s) = .next w ∧ t = cycleEnd r (popInput s) w := by
  obtain ⟨j, w, ⟨-, decoded⟩, hw, rfl⟩ := step_next_of_runs runs ht
  obtain rfl := Except.ok.inj ((decodeCommand_commandWord command).symm.trans (word ▸ decoded))
  exact ⟨w, hw, rfl⟩

/-- Settles O49: CLEAR and UNMASK leave an unmasked store with room, and MASK one that takes no append. -/
theorem commandComesBeforeCompletion : Obligations.CommandComesBeforeCompletion := by
  intro s t r runs valid ht
  refine ⟨fun word unmasked => ?_, fun word room => ?_, fun word => ?_⟩
  · obtain ⟨w, hw, rfl⟩ := exec_of_step_commandWord (i := .clear) runs ht rfl word
    obtain rfl := exec_clear_next.mp hw
    exact cycleEnd_appends valid unmasked (Nat.zero_le _)
  · obtain ⟨w, hw, rfl⟩ := exec_of_step_commandWord (i := .unmask) runs ht rfl word
    obtain rfl := exec_unmask_next.mp hw
    obtain ⟨cell, cursor, others⟩ := cycleEnd_appends (s0 := popInput s)
      (w := respond 0#64 (setMasked false (popInput s))) valid rfl room
    exact ⟨cell, cursor, others, cycleEnd_masked r _ _⟩
  · obtain ⟨store, masked, cursor, -⟩ := maskHoldsTheStore s t r runs (.inr word) (by rw [word]; decide) ht
    exact ⟨store, cursor (by rw [word]; decide), masked⟩

end Sys2Proof.Proofs
end

section
/-! PROOF. A command answers from the state its cycle started with (spec/40_cycle_and_port.md R100,
spec/70_reset_and_hazards.md R283). -/

namespace Sys2Proof.Proofs

open Sys2Proof.Machine Sys2Proof.Safety

/-! ## The answers of any command -/

/-- No command sees the inputs to come. -/
theorem sameVisible_popInput (s : State) : SameVisible (popInput s) s :=
  ⟨fun _ => rfl, ⟨rfl, rfl⟩, rfl, rfl, ⟨rfl, rfl⟩, rfl, rfl⟩

/-- A cycle's `RESP` is what its command answers in the state the cycle started with. -/
theorem step_answers {s t : State} {r : CycleRecord} {i : Instr} (runs : Runs s r)
    (ht : step s = .next t) (decoded : decodeCommand r.cmd = .ok i) :
    ∃ w, exec i s = .next w ∧ t.out.resp = w.out.resp := by
  obtain ⟨j, u, ⟨-, decoded'⟩, hu, rfl⟩ := step_next_of_runs runs ht
  obtain rfl := Except.ok.inj (decoded.symm.trans decoded')
  obtain ⟨w, hw, resp, -⟩ :=
    exec_of_sameVisible (decodeCommand_isCommand decoded) (sameVisible_popInput s) hu
  exact ⟨w, hw, (cycleEnd_resp _ _ _).trans resp⟩

/-- The same with the command's outcome at hand. -/
theorem step_resp_eq {s t w : State} {r : CycleRecord} {i : Instr} (runs : Runs s r)
    (ht : step s = .next t) (decoded : decodeCommand r.cmd = .ok i) (hw : exec i s = .next w) :
    t.out.resp = w.out.resp := by
  obtain ⟨w', hw', resp⟩ := step_answers runs ht decoded
  obtain rfl := Host.Outcome.next.inj (hw.symm.trans hw')
  exact resp

/-! ## The fields of SEGMENT's answer -/

/-- A field wholly above the value's place is zero. -/
theorem extractLsb'_atLong_above {n : Nat} (v : BitVec n) {lo k m : Nat} (h : lo + n ≤ k) :
    (atLong lo v).extractLsb' k m = 0#m := by
  apply BitVec.eq_of_getLsbD_eq
  intro i _
  simp [BitVec.getLsbD_of_ge v (k + i - lo) (by omega)]

/-- R81: four half words, each in its place of a response, read back. -/
theorem extractLsb'_of_halves (a b c d : Half) :
    let v := atLong 0 a ||| atLong 16 b ||| atLong 32 c ||| atLong 48 d
    v.extractLsb' 0 16 = a ∧ v.extractLsb' 16 16 = b ∧ v.extractLsb' 32 16 = c
      ∧ v.extractLsb' 48 16 = d := by
  have own (h : Half) {lo : Nat} (bound : lo + 16 ≤ 64) : (atLong lo h).extractLsb' lo 16 = h :=
    (extractLsb'_atLong h (k := 0) bound).trans BitVec.extractLsb'_eq_self
  simp [BitVec.extractLsb'_or, own, extractLsb'_atLong_below, extractLsb'_atLong_above]

/-- R160: under a legal configuration a row is an exact difference and fits 16 bits. -/
theorem rowHalf_toNat_add {c : Config} (legal : legalConfig c = true) (d : Byte) :
    (rowHalf c d).toNat + d.toNat / 2 = c.plotBottom := by
  obtain ⟨-, -, ⟨bottom_ge, bottom_le⟩, -⟩ := legalConfig_iff_bounds.mp legal
  have sample := d.isLt
  rw [rowHalf, row, BitVec.toNat_ofNat, Nat.mod_eq_of_lt (by omega)]
  omega

/-- R162: the two columns and the two rows that SEGMENT answers. -/
theorem segmentResponse_line {s : State} {k : Nat} (legal : legalConfig s.cfg = true)
    (pair : k + 2 ≤ s.cfg.width) :
    ((segmentResponse s k).extractLsb' 0 16).toNat = k
      ∧ ((segmentResponse s k).extractLsb' 16 16).toNat = k + 1
      ∧ ((segmentResponse s k).extractLsb' 32 16).toNat + (readCell s k).toNat / 2 = s.cfg.plotBottom
      ∧ ((segmentResponse s k).extractLsb' 48 16).toNat + (readCell s (k + 1)).toNat / 2
        = s.cfg.plotBottom := by
  obtain ⟨⟨-, width_le⟩, -⟩ := legalConfig_iff_bounds.mp legal
  obtain ⟨x0, x1, y0, y1⟩ := extractLsb'_of_halves (BitVec.ofNat 16 k) (BitVec.ofNat 16 (k + 1))
    (rowHalf s.cfg (readCell s k)) (rowHalf s.cfg (readCell s (k + 1)))
  rw [segmentResponse, x0, x1, y0, y1, BitVec.toNat_ofNat, BitVec.toNat_ofNat,
    Nat.mod_eq_of_lt (by omega), Nat.mod_eq_of_lt (by omega)]
  exact ⟨rfl, rfl, rowHalf_toNat_add legal _, rowHalf_toNat_add legal _⟩

/-- Settles O58: each answer named is that of the command run in the start state. -/
theorem commandsSeeTheStartOfTheCycle : Obligations.CommandsSeeTheStartOfTheCycle := by
  intro s t r runs ht
  obtain ⟨status, cursor, ⟨_, hperiod, period, -⟩, selector, ⟨_, hrange, range, -⟩, -⟩ :=
    rdregReadsRegisters s
  refine ⟨fun i => step_answers runs ht, fun a decoded => ?_, fun k decoded => ?_, fun decoded => ?_,
    fun decoded bound => ?_, fun decoded => ?_, fun decoded bound => ?_, fun decoded => ?_,
    fun m decoded => ?_⟩
  · obtain ⟨w, hw, resp⟩ := step_answers runs ht decoded
    obtain ⟨-, rfl⟩ := exec_rdbuf_next.mp hw
    exact resp
  · obtain ⟨w, hw, resp⟩ := step_answers runs ht decoded
    obtain ⟨pair, rfl⟩ := exec_segment_next.mp hw
    obtain ⟨-, legal, -⟩ := runs
    rw [resp]
    exact segmentResponse_line legal pair
  · obtain ⟨_, hw, isFull, masked, running, view, zeros, -⟩ := status
    rw [step_resp_eq runs ht decoded hw]
    exact ⟨isFull, masked, running, view, zeros⟩
  · obtain ⟨_, hw, value, -⟩ := cursor bound
    rw [step_resp_eq runs ht decoded hw, value]
  · rw [step_resp_eq runs ht decoded hperiod, period]
  · obtain ⟨_, hw, value, -⟩ := selector bound
    rw [step_resp_eq runs ht decoded hw, value]
  · rw [step_resp_eq runs ht decoded hrange, range]
  · obtain ⟨w, hw, resp⟩ := step_answers runs ht decoded
    obtain ⟨-, rfl⟩ := exec_hilite_next.mp hw
    exact resp

end Sys2Proof.Proofs
end

section
/-! PROOF. The clock's two commands (spec/41_sample_clock.md R120, R121). -/

namespace Sys2Proof.Proofs

open Sys2Proof.Machine Sys2Proof.Safety

/-- What the clock's commands leave unchanged: all but `PERIOD`, `RUNNING`, `COUNT` and `RESP`. -/
theorem same_of_clock_write (s : State) (p : Half) (b : Bool) (n : Half) (v : Long) :
    let t := respond v { s with period := p, running := b, count := n }
    SameStore s t ∧ SameCursorMask s t ∧ SameLatch s t ∧ SamePins s t ∧ SameMenu s t ∧ SameRest s t :=
  ⟨fun _ => rfl, ⟨rfl, rfl⟩, ⟨rfl, rfl⟩, ⟨rfl, rfl⟩, ⟨rfl, rfl⟩,
    ⟨rfl, rfl, rfl, rfl, rfl, rfl, rfl, rfl, rfl, rfl⟩⟩

/-- Settles O23: `PERIOD` and `RESP` are all it writes. -/
theorem cfgperSetsPeriod : Obligations.CfgperSetsPeriod := by
  refine fun s p => ⟨fun nonzero => ?_, fun zero => ?_⟩
  · exact ⟨_, exec_cfgper_next.mpr ⟨nonzero, rfl⟩, rfl, rfl, rfl, rfl,
      same_of_clock_write s p s.running s.count _⟩
  · subst zero
    rfl

/-- R121: START of a clock that no CFGPER has configured. -/
theorem exec_start_of_unconfigured {s : State} (stopped : s.running = false) (unconfigured : s.period = 0#16) :
    exec .start s = .fault (.notConfigured s.cycle (commandWord .start)) := by
  simp [exec, execStart, stopped, unconfigured, raiseFault]

/-- Settles O24: by whether the clock runs and whether it is configured. -/
theorem startStartsClock : Obligations.StartStartsClock := by
  refine fun s => ⟨fun runs => ?_, fun stopped configured => ?_, exec_start_of_unconfigured⟩
  · exact ⟨_, exec_start_next.mpr (.inl ⟨runs, rfl⟩), rfl, sameButResponse_respond _ s⟩
  · exact ⟨_, exec_start_next.mpr (.inr ⟨stopped, configured, rfl⟩), rfl, rfl, rfl, rfl,
      same_of_clock_write s s.period true 0#16 _⟩

end Sys2Proof.Proofs
end

section
/-! PROOF. The trigger counter over one cycle (spec/41_sample_clock.md R122). -/

namespace Sys2Proof.Proofs

open Sys2Proof.Machine Sys2Proof.Safety

/-! ## The command's part -/

/-- R121: only a START that starts the clock writes `COUNT`. -/
theorem Effect.count_of_running_eq {i : Instr} {s t : State} (h : Effect s i t)
    (running : t.running = s.running) : t.count = s.count := by
  cases h with
  | start stopped => simp [stopped] at running
  | answer | period | mask | unmask | clear | completion | advance | confirm => simp

/-- R120: only CFGPER writes `PERIOD`. -/
theorem Effect.period_eq_or {i : Instr} {s t : State} (h : Effect s i t) :
    t.period = s.period ∨ i = .cfgper t.period := by
  cases h with
  | period => exact .inr rfl
  | answer | start | mask | unmask | clear | completion | advance | confirm => exact .inl (by simp)

/-- Settles O42: phase 5 finds the counter that the cycle started with, unless this cycle started it. -/
theorem counterStepsEachCycle : Obligations.CounterStepsEachCycle := by
  intro s t r runs ht
  obtain ⟨i, w, ⟨-, decoded⟩, hw, rfl⟩ := step_next_of_runs runs ht
  have effect := effect_of_exec hw
  have count_kept (h : s.running = true) : w.count = s.count :=
    effect.count_of_running_eq ((effect.keeps_running h).trans h.symm)
  have clock := cycleEnd_clock r (popInput s) w
  rw [popInput_running] at clock
  rw [cycleEnd_period, cycleEnd_running]
  refine ⟨fun stopped => ?_, fun running reached => ?_, fun running below => ?_, ?_⟩
  · obtain ⟨-, count, trig⟩ | ⟨running, -⟩ | ⟨running, -⟩ := clock
    · exact ⟨trig, fun still => count.trans (effect.count_of_running_eq (still.trans stopped.symm))⟩
    all_goals simp [stopped] at running
  · rw [count_kept running] at clock
    obtain ⟨stopped, -⟩ | ⟨-, -, count, trig⟩ | ⟨-, below, -⟩ := clock
    · simp [running] at stopped
    · exact ⟨trig, count⟩
    · omega
  · rw [count_kept running] at clock
    obtain ⟨stopped, -⟩ | ⟨-, reached, -⟩ | ⟨-, -, count, trig⟩ := clock
    · simp [running] at stopped
    · omega
    · exact ⟨trig, by rw [count, BitVec.toNat_add_of_lt (by simp; omega)]; rfl⟩
  · refine effect.period_eq_or.imp_right fun cfgper => ?_
    rw [← commandWord_of_decodeCommand decoded, cfgper]
    exact ⟨opcField_makeWord _ _, (immField_makeWord _ _).symm⟩

/-! ## A cycle that keeps the period -/

/-- Every cycle takes its own inputs off the list and no others. -/
theorem step_inputs {s t : State} (ht : step s = .next t) : t.inputs = s.inputs.tail := by
  obtain ⟨-, rfl⟩ | ⟨-, r, i, w, -, hw, rfl⟩ := step_cases ht
  · rfl
  · rw [cycleEnd_inputs]
    cases hw <;> simp

/-- A cycle out of reset that answers a next state is one that can run. -/
theorem runs_of_step_next {s t : State} (ht : step s = .next t) (hn : (nextInput s).rstN = true) :
    ∃ r, Runs s r := by
  obtain ⟨⟨-, -, hn', -⟩, -⟩ | ⟨r, -, -, ⟨runs, -⟩, -⟩ := step_next_cases ht
  · simp [hn] at hn'
  · exact ⟨r, runs⟩

/-- R28: a clock that runs still runs after a cycle out of reset. -/
theorem step_keeps_running {s t : State} (ht : step s = .next t) (running : s.running = true)
    (hn : (nextInput s).rstN = true) : t.running = true := by
  obtain ⟨-, cycle_keeps, -⟩ := runningIsNeverCleared
  exact cycle_keeps s t ht running hn

/-- A field of `CMD` stands at the same bits of the cycle's input. -/
theorem cmd_field_of_runs {s : State} {r : CycleRecord} (runs : Runs s r) {lo n : Nat} (h : lo + n ≤ 32) :
    r.cmd.extractLsb' lo n = (nextInput s).word.extractLsb' lo n := by
  obtain ⟨-, -, -, record⟩ := runs
  rw [← encodeRecord_of_decodeRecord record, encodeRecord_cmd_field r h]

theorem keepsPeriod_iff {p : Half} {x : CycleInput} :
    keepsPeriod p x = true ↔ x.rstN = true ∧ (opcodeOf x ≠ 0x01#8 ∨ x.word.extractLsb' 0 16 = p) := by
  simp [keepsPeriod]

/-- An input that keeps a period `p` leaves a clock of that period at it. -/
theorem period_of_keepsPeriod {s t : State} {p : Half} (keeps : keepsPeriod p (nextInput s) = true)
    (period : s.period = p) (ht : step s = .next t) : t.period = p := by
  obtain ⟨rstN, command⟩ := keepsPeriod_iff.mp keeps
  obtain ⟨r, runs⟩ := runs_of_step_next ht rstN
  obtain ⟨-, -, -, kept | ⟨opcode, operand⟩⟩ := counterStepsEachCycle s t r runs ht
  · exact kept.trans period
  · rw [cmd_field_of_runs runs (by decide)] at opcode operand
    obtain other | same := command
    · exact absurd opcode other
    · exact operand.trans same

end Sys2Proof.Proofs
end

section
/-! PROOF. The trigger's schedule over a run of cycles that keep the period (spec/41_sample_clock.md R123,
R124). -/

namespace Sys2Proof.Proofs

open Sys2Proof.Machine Sys2Proof.Safety

/-! ## A clock that ticks -/

/-- The clock runs with period `p`, and its counter stands where `c` ticks from 0 leave it. -/
structure Ticking (p : Half) (c : Nat) (s : State) : Prop where
  period_pos : 1 ≤ p.toNat
  running : s.running = true
  period : s.period = p
  count : s.count.toNat = c % p.toNat

/-- R122: a cycle that keeps the period ticks once, and triggers when the ticks make up a whole number of
periods. -/
theorem Ticking.step {p : Half} {c : Nat} {s t : State} (h : Ticking p c s)
    (keeps : keepsPeriod p (nextInput s) = true) (ht : step s = .next t) :
    Ticking p (c + 1) t ∧ (t.out.trig = true ↔ p.toNat ∣ c + 1) := by
  obtain ⟨pos, running, period, count⟩ := h
  obtain ⟨rstN, -⟩ := keepsPeriod_iff.mp keeps
  have running' : t.running = true := step_keeps_running ht running rstN
  have period' : t.period = p := period_of_keepsPeriod keeps period ht
  obtain ⟨r, runs⟩ := runs_of_step_next ht rstN
  obtain ⟨-, reached, below, -⟩ := counterStepsEachCycle s t r runs ht
  rw [period', count] at reached below
  have round : (c + 1) % p.toNat = (c % p.toNat + 1) % p.toNat := (Nat.mod_add_mod _ _ _).symm
  have bound : c % p.toNat < p.toNat := Nat.mod_lt _ pos
  rw [Nat.dvd_iff_mod_eq_zero]
  obtain last | more : c % p.toNat + 1 = p.toNat ∨ c % p.toNat + 1 < p.toNat := by omega
  · obtain ⟨trig, zero⟩ := reached running last.ge
    rw [last, Nat.mod_self] at round
    exact ⟨⟨pos, running', period', by rw [zero, round]; rfl⟩, by simp [trig, round]⟩
  · obtain ⟨trig, up⟩ := below running more
    rw [Nat.mod_eq_of_lt more] at round
    exact ⟨⟨pos, running', period', by rw [up, round]⟩, by simp [trig, round]⟩

/-! ## Runs -/

/-- The next `n` inputs are listed, and each keeps a period `p`. -/
def PeriodKeptFor (p : Half) (n : Nat) (ins : List CycleInput) : Prop :=
  n ≤ ins.length ∧ ∀ x ∈ ins.take n, keepsPeriod p x = true

theorem periodKeptFor_succ {p : Half} {n : Nat} {s : State} (h : PeriodKeptFor p (n + 1) s.inputs) :
    keepsPeriod p (nextInput s) = true ∧ PeriodKeptFor p n s.inputs.tail := by
  obtain ⟨listed, keeps⟩ := h
  unfold nextInput
  cases hins : s.inputs with
  | nil => simp [hins] at listed
  | cons x rest =>
    simp only [hins, List.length_cons, List.take_succ_cons, List.mem_cons, forall_eq_or_imp] at listed keeps
    exact ⟨keeps.1, by simpa using listed, keeps.2⟩

/-- R123, R124: while the period is kept, the trigger goes on to follow the ticks. -/
theorem Ticking.run_trig_iff {p : Half} {n c : Nat} {s t : State} (h : Ticking p c s)
    (trig : s.out.trig = true ↔ p.toNat ∣ c) (keeps : PeriodKeptFor p n s.inputs)
    (ht : run n s = .next t) : t.out.trig = true ↔ p.toNat ∣ c + n := by
  induction n generalizing c s with
  | zero =>
    obtain rfl := Host.Outcome.next.inj ht
    exact trig
  | succ n ih =>
    obtain ⟨u, hu, ht⟩ := run_succ_next.mp ht
    obtain ⟨now, later⟩ := periodKeptFor_succ keeps
    obtain ⟨ticking, trig'⟩ := h.step now hu
    rw [Nat.add_comm n 1, ← Nat.add_assoc]
    exact ih ticking trig' (step_inputs hu ▸ later) ht

/-! ## The cycles of START and CFGPER -/

/-- R120, R121: a period that CFGPER takes and START accepts. -/
theorem one_le_toNat {p : Half} (nonzero : p ≠ 0#16) : 1 ≤ p.toNat :=
  Nat.pos_of_ne_zero (mt period_zero_iff.mp nonzero)

/-- A cycle that answers a next state ran the command it was issued. -/
theorem exec_of_step_issues {s t : State} {r : CycleRecord} {i : Instr} (issues : Issues s r i)
    (ht : step s = .next t) : ∃ w, exec i (popInput s) = .next w ∧ t = cycleEnd r (popInput s) w := by
  rw [step_of_issues issues, andThen_eq_next] at ht
  obtain ⟨w, hw, ht⟩ := ht
  exact ⟨w, hw, (Host.Outcome.next.inj ht).symm⟩

/-- R121: the cycle of an accepted START has no trigger, and its clock ticks from 0. -/
theorem ticking_of_start {s t : State} {r : CycleRecord} (issues : Issues s r .start)
    (stopped : s.running = false) (ht : step s = .next t) :
    Ticking s.period 0 t ∧ t.out.trig = false := by
  obtain ⟨w, hw, rfl⟩ := exec_of_step_issues issues ht
  obtain ⟨running, -⟩ | ⟨-, configured, rfl⟩ := exec_start_next.mp hw
  · simp [stopped] at running
  · obtain ⟨-, count, trig⟩ | ⟨running, -⟩ | ⟨running, -⟩ := cycleEnd_clock r (popInput s) _
    · exact ⟨⟨one_le_toNat configured, cycleEnd_running _ _ _, cycleEnd_period _ _ _,
        by rw [count, Nat.zero_mod]; rfl⟩, trig⟩
    all_goals simp [stopped] at running

/-- R120: the period of a cycle whose command is CFGPER. -/
theorem period_of_cfgper {s t : State} {r : CycleRecord} {p : Half} (issues : Issues s r (.cfgper p))
    (ht : step s = .next t) : 1 ≤ p.toNat ∧ t.period = p := by
  obtain ⟨w, hw, rfl⟩ := exec_of_step_issues issues ht
  obtain ⟨nonzero, rfl⟩ := exec_cfgper_next.mp hw
  exact ⟨one_le_toNat nonzero, cycleEnd_period _ _ _⟩

/-! ## The two schedules -/

/-- Settles O43: from the cycle after START on the trigger follows the ticks. -/
theorem triggerSchedule : Obligations.TriggerSchedule := by
  intro s t r n issues stopped listed keeps ht
  obtain ⟨u, hu, ht⟩ := run_succ_next.mp ht
  obtain ⟨-, later⟩ := periodKeptFor_succ ⟨listed, keeps⟩
  obtain ⟨ticking, noTrigger⟩ := ticking_of_start issues stopped hu
  have pos := ticking.period_pos
  cases n with
  | zero =>
    obtain rfl := Host.Outcome.next.inj ht
    have never : ∀ k, 1 ≤ k → 0 ≠ k * s.period.toNat := fun k hk => (Nat.mul_pos hk pos).ne
    simpa [noTrigger] using never
  | succ n =>
    obtain ⟨v, hv, ht⟩ := run_succ_next.mp ht
    obtain ⟨now, later⟩ := periodKeptFor_succ (step_inputs hu ▸ later)
    obtain ⟨ticking, trig⟩ := ticking.step now hv
    rw [ticking.run_trig_iff trig (step_inputs hv ▸ later) ht, dvd_iff_exists_eq_mul_left]
    constructor
    · rintro ⟨k, hk⟩
      exact ⟨k, Nat.pos_of_ne_zero (by rintro rfl; omega), by omega⟩
    · rintro ⟨k, -, hk⟩
      exact ⟨k, by omega⟩

theorem tail_take_succ {α : Type} (l : List α) (n : Nat) : (l.take (n + 1)).tail = l.tail.take n := by
  cases l <;> simp

/-- R124: the multiples of the period `p` after a count of `n + 1`, counted from there. -/
theorem dvd_add_iff_exists {p n m : Nat} (h : n + 1 < p) :
    p ∣ n + 1 + m ↔ ∃ k, m = (p - 1 - n) + k * p := by
  rw [dvd_iff_exists_eq_mul_left]
  constructor
  · rintro ⟨k, hk⟩
    obtain ⟨k, rfl⟩ := Nat.exists_eq_add_one_of_ne_zero (n := k) (by rintro rfl; omega)
    exact ⟨k, by rw [Nat.add_one_mul] at hk; omega⟩
  · rintro ⟨k, rfl⟩
    exact ⟨k + 1, by rw [Nat.add_one_mul]; omega⟩

/-- Settles O44: CFGPER's own cycle leaves a clock that ticks with the new period, from 0 where it triggers and
from the next count where it does not. -/
theorem periodChangeSchedule : Obligations.PeriodChangeSchedule := by
  intro s t r p m issues running listed keeps ht
  obtain ⟨runs, -⟩ := id issues
  obtain ⟨-, -, rstN, -⟩ := id runs
  obtain ⟨u, hu, ht⟩ := run_succ_next.mp ht
  have later : PeriodKeptFor p m u.inputs := by
    rw [step_inputs hu]
    exact ⟨by rw [List.length_tail]; omega, by rwa [tail_take_succ] at keeps⟩
  have running' : u.running = true := step_keeps_running hu running rstN
  obtain ⟨pos, period⟩ := period_of_cfgper issues hu
  obtain ⟨-, reached, below, -⟩ := counterStepsEachCycle s u r runs hu
  rw [period] at reached below
  refine ⟨fun h => ?_, fun h => ?_⟩
  · obtain ⟨trig, count⟩ := reached running h
    have ticking : Ticking p 0 u := ⟨pos, running', period, by rw [count, Nat.zero_mod]; rfl⟩
    rw [ticking.run_trig_iff (by simp [trig]) later ht, Nat.zero_add, dvd_iff_exists_eq_mul_left]
  · obtain ⟨trig, count⟩ := below running h
    have ticking : Ticking p (s.count.toNat + 1) u :=
      ⟨pos, running', period, by rw [count, Nat.mod_eq_of_lt h]⟩
    have noTrigger : ¬ p.toNat ∣ s.count.toNat + 1 := Nat.not_dvd_of_pos_of_lt (by omega) h
    rw [ticking.run_trig_iff (by simp [trig, noTrigger]) later ht, dvd_add_iff_exists h]

end Sys2Proof.Proofs
end

section
/-! PROOF. The Converter's contract (spec/41_sample_clock.md R126). -/

namespace Sys2Proof.Proofs

open Sys2Proof.Safety

/-- R126: one cycle of the contract. -/
theorem converterKeeps_cons {lat left : Nat} {trig valid : Bool} {rest : List (Bool × Bool)} :
    converterKeeps lat left ((trig, valid) :: rest) = true ↔
      valid = (left == 1) ∧ converterKeeps lat (converterNext lat left trig) rest = true := by
  simp [converterKeeps]

/-- R126 (c): while a conversion goes on, a trigger starts nothing. -/
theorem converterNext_busy (lat n : Nat) (trig : Bool) : converterNext lat (n + 2) trig = n + 1 := by
  simp [converterNext]

/-- R126 (a), (c): with a conversion due after the cycles `busy`, no completion comes in them, whatever their
triggers, and it is due then. -/
theorem converterKeeps_busy {lat : Nat} {busy rest : List (Bool × Bool)}
    (h : converterKeeps lat (busy.length + 1) (busy ++ rest) = true) :
    (∀ x ∈ busy, x.2 = false) ∧ converterKeeps lat 1 rest = true := by
  induction busy with
  | nil => exact ⟨by simp, h⟩
  | cons x busy ih =>
    obtain ⟨trig, valid⟩ := x
    obtain ⟨silent, keeps⟩ := converterKeeps_cons.mp h
    rw [List.length_cons, converterNext_busy] at keeps
    obtain ⟨later, due⟩ := ih keeps
    exact ⟨List.forall_mem_cons.mpr ⟨by simpa using silent, later⟩, due⟩

/-- Settles O59: the trigger makes the Converter busy for `lat - 1` cycles, and the completion idle again. -/
theorem converterAnswersATrigger : Obligations.ConverterAnswersATrigger := by
  intro lat before after v _ hlat keeps
  subst hlat
  obtain ⟨-, keeps⟩ := converterKeeps_cons.mp keeps
  obtain ⟨silent, keeps⟩ := converterKeeps_busy (busy := before) keeps
  obtain ⟨completes, idle⟩ := converterKeeps_cons.mp keeps
  exact ⟨silent, completes, idle⟩

end Sys2Proof.Proofs
end

section
/-! PROOF. The commands of CaptureBuffer (spec/42_capture_buffer.md R142 to R145). -/

namespace Sys2Proof.Proofs

open Sys2Proof.Machine Sys2Proof.Safety

/-- What MASK, UNMASK and CLEAR leave unchanged: all but `MASKED`, `CURSOR` and `RESP`. -/
theorem same_of_mask_cursor_write (s : State) (b : Bool) (n : Nat) (v : Long) :
    let t := respond v { s with masked := b, cursor := n }
    SameStore s t ∧ SameLatch s t ∧ SameClock s t ∧ SamePins s t ∧ SameMenu s t ∧ SameRest s t :=
  ⟨fun _ => rfl, ⟨rfl, rfl⟩, ⟨rfl, rfl, rfl⟩, ⟨rfl, rfl⟩, ⟨rfl, rfl⟩,
    ⟨rfl, rfl, rfl, rfl, rfl, rfl, rfl, rfl, rfl, rfl⟩⟩

/-- Settles O25: `MASKED` and `RESP` are all they write. -/
theorem maskAndUnmaskWriteMasked : Obligations.MaskAndUnmaskWriteMasked :=
  fun s =>
    ⟨⟨_, exec_mask_next.mpr rfl, rfl, rfl, rfl, rfl, same_of_mask_cursor_write s true s.cursor _⟩,
      ⟨_, exec_unmask_next.mpr rfl, rfl, rfl, rfl, rfl, same_of_mask_cursor_write s false s.cursor _⟩⟩

/-- Settles O26: `CURSOR` and `RESP` are all it writes, and a cursor of 0 is not above `WIDTH`. -/
theorem clearRewindsCursor : Obligations.ClearRewindsCursor :=
  fun s => ⟨_, exec_clear_next.mpr rfl, rfl, not_full_iff.mpr (Nat.zero_le _), rfl, rfl,
    same_of_mask_cursor_write s s.masked 0 _⟩

/-- R81: a sample as an answer is bits 7:0, with zeros above. -/
theorem zextByte_fields (b : Byte) :
    (zextByte b).extractLsb' 0 8 = b ∧ (zextByte b).extractLsb' 8 56 = 0#56 := by
  refine ⟨?_, BitVec.eq_of_getLsbD_eq fun i _ => ?_⟩
  · rw [zextByte, BitVec.extractLsb'_setWidth_of_le (by decide), BitVec.extractLsb'_eq_self]
  · simp [zextByte]

theorem exec_rdbuf_of_above {s : State} {a : Half} (above : s.cfg.width < a.toNat) :
    exec (.rdbuf a) s = .fault (.bufAddr s.cycle (commandWord (.rdbuf a))) :=
  if_pos above

/-- Settles O27: by the address's bound. -/
theorem rdbufReadsCell : Obligations.RdbufReadsCell := by
  refine fun s a => ⟨fun bound => ?_, fun above => ?_⟩
  · obtain ⟨cell, zeros⟩ := zextByte_fields (readCell s a.toNat)
    exact ⟨_, exec_rdbuf_next.mpr ⟨bound, rfl⟩, cell, zeros, sameButResponse_respond _ s⟩
  · rw [exec_rdbuf_of_above above, commandWord, makeWord_eq]
    rfl

end Sys2Proof.Proofs
end

section
/-! PROOF. One completion, under both policies (spec/42_capture_buffer.md R140, R141, R147). -/

namespace Sys2Proof.Proofs

open Sys2Proof.Machine Sys2Proof.Safety

/-! ## What a completion does, case by case -/

section
variable {s : State} (d : Byte)

theorem completed_of_drop_masked (drop : s.cfg.maskedPolicy = .drop) (masked : s.masked = true) :
    completed d s = s := by
  simp [completed, completeDrop, drop, masked]

theorem completed_of_drop_unmasked (drop : s.cfg.maskedPolicy = .drop) (unmasked : s.masked = false) :
    completed d s = appendSample d s := by
  simp [completed, completeDrop, drop, unmasked]

theorem completed_of_latchOne_masked (latchOne : s.cfg.maskedPolicy = .latchOne)
    (masked : s.masked = true) : completed d s = latchPend d s := by
  simp [completed, completeLatch, latchOne, masked]

theorem completed_of_latchOne_unmasked (latchOne : s.cfg.maskedPolicy = .latchOne)
    (unmasked : s.masked = false) : completed d s = appendSample d (dropPend s) := by
  simp [completed, completeLatch, latchOne, unmasked]

/-- R140, R141: accepted, a completion writes the cell at `CURSOR` and no other, under either policy. -/
theorem completed_store_of_accepted (unmasked : s.masked = false) (room : s.cursor ≤ s.cfg.width) :
    readCell (completed d s) s.cursor = d ∧ SameStoreBut s.cursor s (completed d s) := by
  obtain ⟨buf, -⟩ := afterCompletion_accepted (r := eventRecord true d false false) rfl unmasked
    (not_full_iff.mpr room)
  have read (a : Nat) : readCell (completed d s) a = readCell (storeCell s.cursor d s) a :=
    readCell_congr (s := storeCell s.cursor d s) buf (completed_epoch d s) a
  refine ⟨?_, fun b other => ?_⟩
  · rw [read, readCell_storeCell_same]
  · rw [read, readCell_storeCell_other _ _ other]

/-- R25: the append that makes `FULL` 1 is that at `CURSOR = WIDTH`. -/
theorem full_completed_iff (unmasked : s.masked = false) (room : s.cursor ≤ s.cfg.width) :
    full (completed d s) = true ↔ s.cursor = s.cfg.width := by
  rw [full_iff, completed_cursor_of_accepted d unmasked room, completed_cfg]
  omega

end

/-- What no completion writes, whatever it finds. -/
theorem completed_frame (s : State) (d : Byte) :
    SameClock s (completed d s) ∧ SamePins s (completed d s) ∧ SameMenu s (completed d s)
      ∧ SameRest s (completed d s) := by
  simp [SameClock, SamePins, SameMenu, SameRest]

theorem sameButResponse_refl (s : State) : SameButResponse s s :=
  sameButResponse_respond s.out.resp s

/-- Settles O32: by whether the store is masked or full. -/
theorem completionUnderDrop : Obligations.CompletionUnderDrop := by
  refine fun s d drop => ⟨fun dropped => ?_, fun unmasked room => ?_⟩
  · have unchanged : completed d s = s := by
      cases masked : s.masked with
      | true => exact completed_of_drop_masked d drop masked
      | false =>
        have isFull : full s = true := full_iff.mpr (dropped.resolve_left (by simp [masked]))
        rw [completed_of_drop_unmasked d drop masked, appendSample_full d isFull]
    exact ⟨s, (exec_completion d s).trans (congrArg _ unchanged), rfl, sameButResponse_refl s⟩
  · obtain ⟨cell, others⟩ := completed_store_of_accepted d unmasked room
    have latch : SameLatch s (completed d s) := by
      simp [completed_of_drop_unmasked d drop unmasked, SameLatch]
    exact ⟨_, exec_completion d s, cell, completed_cursor_of_accepted d unmasked room,
      full_completed_iff d unmasked room, others, completed_masked d s, by simp, latch,
      completed_frame s d⟩

/-! ## A cycle without completion -/

/-- R141: masked or with nothing held, it does nothing. -/
theorem serviceLatch_idle {s : State} (idle : s.masked = true ∨ s.pendV = false) : serviceLatch s = s := by
  obtain ⟨-, unchanged⟩ | ⟨-, unmasked, held, -⟩ := serviceLatch_cases s
  · exact unchanged
  · simp [unmasked, held] at idle

/-- R141: unmasked, it does with the held sample what a completion of that sample would do. -/
theorem serviceLatch_eq_completed {s : State} (latchOne : s.cfg.maskedPolicy = .latchOne)
    (unmasked : s.masked = false) (held : s.pendV = true) : serviceLatch s = completed s.pendD s := by
  obtain ⟨idle, -⟩ | ⟨-, -, -, appended⟩ := serviceLatch_cases s
  · exact absurd ⟨latchOne, unmasked, held⟩ idle
  · rw [appended, completed_of_latchOne_unmasked _ latchOne unmasked]

/-- Settles O33: by whether the store is masked or full, and by what the latch holds. -/
theorem completionUnderLatchOne : Obligations.CompletionUnderLatchOne := by
  refine fun s d latchOne => ⟨fun masked => ?_, fun unmasked isFull => ?_, fun unmasked room => ?_,
    serviceLatch_idle, fun unmasked held t ht => ?_⟩
  · have isHeld := completed_of_latchOne_masked d latchOne masked
    exact ⟨latchPend d s, isHeld ▸ exec_completion d s, rfl, rfl, rfl, fun _ => rfl, ⟨rfl, rfl⟩,
      isHeld ▸ completed_frame s d⟩
  · have isDropped : completed d s = dropPend s := by
      rw [completed_of_latchOne_unmasked d latchOne unmasked]
      exact appendSample_full d (full_iff.mpr isFull)
    exact ⟨dropPend s, isDropped ▸ exec_completion d s, rfl, rfl, fun _ => rfl, ⟨rfl, rfl⟩, rfl,
      isDropped ▸ completed_frame s d⟩
  · obtain ⟨cell, others⟩ := completed_store_of_accepted d unmasked room
    have appended := completed_of_latchOne_unmasked d latchOne unmasked
    exact ⟨_, exec_completion d s, by simp [appended], cell,
      completed_cursor_of_accepted d unmasked room, others, completed_masked d s, by simp [appended],
      by simp, completed_frame s d⟩
  · rw [serviceLatch_eq_completed latchOne unmasked held]
    exact Host.Outcome.next.inj ((exec_completion _ s).symm.trans ht)

/-- Settles O48: CLEAR's state has room at cell 0, where a completion at `CURSOR = 0` goes. -/
theorem clearThenAppend : Obligations.ClearThenAppend := by
  refine ⟨fun s t ht => ?_, fun s t d cursor unmasked ht => ?_⟩
  · obtain ⟨u, hu, rewound, notFull, -, -, store, -⟩ := clearRewindsCursor s
    obtain rfl := Host.Outcome.next.inj (hu.symm.trans ht)
    exact ⟨notFull, rewound, store⟩
  · obtain rfl := Host.Outcome.next.inj ((exec_completion d s).symm.trans ht)
    have room : s.cursor ≤ s.cfg.width := by omega
    obtain ⟨cell, others⟩ := completed_store_of_accepted d unmasked room
    have raised := completed_cursor_of_accepted d unmasked room
    rw [cursor] at cell others raised
    exact ⟨cell, raised, others⟩

end Sys2Proof.Proofs
end

section
/-! PROOF. A capture over a run of cycles without MASK or CLEAR (spec/42_capture_buffer.md R146, R148). -/

namespace Sys2Proof.Proofs

open Sys2Proof.Machine Sys2Proof.Safety

/-! ## The samples that arrived, as an invariant -/

/-- Since `CURSOR` was 0 the samples `xs` have arrived, and the store, unmasked and with nothing held, has
taken as many of them as it has cells, in their order. -/
structure Captured (xs : List Byte) (s : State) : Prop where
  unmasked : s.masked = false
  nothingHeld : s.pendV = false
  cursor : s.cursor = min xs.length (s.cfg.width + 1)
  cells : ∀ j, j < s.cursor → xs[j]? = some (readCell s j)

theorem captured_nil {s : State} (cursor : s.cursor = 0) (unmasked : s.masked = false)
    (nothingHeld : s.pendV = false) : Captured [] s :=
  ⟨unmasked, nothingHeld, by simp [cursor], by simp [cursor]⟩

/-- R25: the store is full from the `WIDTH + 1`-th sample on. -/
theorem Captured.full_iff_length {xs : List Byte} {s : State} (h : Captured xs s) :
    full s = true ↔ s.cfg.width + 1 ≤ xs.length := by
  rw [full_iff, h.cursor]
  omega

/-! ## The command's part -/

/-- R143: no operation but MASK begins a mask. -/
theorem Effect.keeps_unmasked {i : Instr} {s t : State} (h : Effect s i t) (ne : i ≠ .mask)
    (unmasked : s.masked = false) : t.masked = false := by
  cases h with
  | mask => exact absurd rfl ne
  | unmask => rfl
  | answer | period | start | clear | completion | advance | confirm => simpa using unmasked

theorem Captured.of_effect {xs : List Byte} {i : Instr} {s w : State} (h : Captured xs s)
    (hw : Effect (popInput s) i w) (command : i.isCommand = true) (notMask : i ≠ .mask)
    (notClear : i ≠ .clear) : Captured xs w := by
  obtain ⟨unmasked, nothingHeld, cursor, cells⟩ := h
  obtain ⟨cfg, buf, pendV, -, -, -⟩ := (hw.commandFrame command).of_popInput
  have same : w.cursor = s.cursor := hw.cursor_of_ne_clear command notClear
  exact
    { unmasked := hw.keeps_unmasked notMask unmasked
      nothingHeld := pendV.trans nothingHeld
      cursor := by rw [same, cfg, cursor]
      cells := fun j hj => by
        rw [readCell_congr buf hw.epoch]
        exact cells j (same ▸ hj) }

/-! ## Phase 2's part -/

/-- The completion that a record carries. -/
def recordSample (r : CycleRecord) : Option Byte := if r.adcValid then some r.adcData else none

theorem cycleEnd_nothingHeld {r : CycleRecord} {s0 w : State} (unmasked : w.masked = false)
    (nothingHeld : w.pendV = false) : (cycleEnd r s0 w).pendV = false := by
  rw [cycleEnd_pendV]
  exact afterCompletion_latch r w (fun _ => nothingHeld) (.inr unmasked)

/-- A cycle that appends nothing, because nothing arrived or the store is full, leaves the capture. -/
theorem Captured.cycleEnd_of_noAppend {xs : List Byte} {r : CycleRecord} {s0 w : State}
    (h : Captured xs w) (none_or_full : recordSample r = none ∨ full w = true) :
    Captured (xs ++ (recordSample r).toList) (cycleEnd r s0 w) := by
  obtain ⟨unmasked, nothingHeld, cursor, cells⟩ := h
  have noAppend : NoAppend r w := by
    obtain noSample | isFull := none_or_full
    · exact .inr (.inr ⟨by simpa [recordSample] using noSample, nothingHeld⟩)
    · exact .inr (.inl isFull)
  obtain ⟨buf, kept⟩ := afterCompletion_store_kept noAppend
  rw [← cycleEnd_cursor r s0] at kept
  exact
    { unmasked := (cycleEnd_masked r s0 w).trans unmasked
      nothingHeld := cycleEnd_nothingHeld unmasked nothingHeld
      cursor := by
        rw [kept, cycleEnd_cfg, List.length_append]
        obtain noSample | isFull := none_or_full
        · simpa [noSample] using cursor
        · rw [full_iff] at isFull
          omega
      cells := fun j hj => by
        rw [kept] at hj
        rw [readCell_congr ((cycleEnd_buf r s0 w).trans buf) (cycleEnd_epoch r s0 w)]
        rw [List.getElem?_append_left (by omega)]
        exact cells j hj }

/-- A cycle whose sample finds room appends it. -/
theorem Captured.cycleEnd_of_append {xs : List Byte} {r : CycleRecord} {s0 w : State}
    (h : Captured xs w) (valid : r.adcValid = true) (room : w.cursor ≤ w.cfg.width) :
    Captured (xs ++ [r.adcData]) (cycleEnd r s0 w) := by
  obtain ⟨unmasked, nothingHeld, cursor, cells⟩ := h
  obtain ⟨cell, raised, others⟩ := cycleEnd_appends (s0 := s0) valid unmasked room
  have length : w.cursor = xs.length := by omega
  exact
    { unmasked := (cycleEnd_masked r s0 w).trans unmasked
      nothingHeld := cycleEnd_nothingHeld unmasked nothingHeld
      cursor := by
        rw [raised, cycleEnd_cfg, List.length_append, List.length_singleton]
        omega
      cells := fun j hj => by
        by_cases last : j = w.cursor
        · rw [last, cell, length, List.getElem?_concat_length]
        · rw [others j last, List.getElem?_append_left (by omega)]
          exact cells j (by omega) }

theorem Captured.cycleEnd {xs : List Byte} {r : CycleRecord} {s0 w : State} (h : Captured xs w) :
    Captured (xs ++ (recordSample r).toList) (cycleEnd r s0 w) := by
  cases valid : r.adcValid with
  | false => exact h.cycleEnd_of_noAppend (.inl (by simp [recordSample, valid]))
  | true =>
    cases isFull : full w with
    | true => exact h.cycleEnd_of_noAppend (.inr isFull)
    | false =>
      have sample : (recordSample r).toList = [r.adcData] := by simp [recordSample, valid]
      rw [sample]
      exact h.cycleEnd_of_append valid (not_full_iff.mp isFull)

/-! ## One cycle -/

theorem keepsCapture_iff {x : CycleInput} :
    keepsCapture x = true ↔ x.rstN = true ∧ opcodeOf x ≠ 0x03#8 ∧ opcodeOf x ≠ 0x05#8 := by
  simp [keepsCapture, and_assoc]

/-- R72: the completion of a cycle's input is that of its record. -/
theorem sampleOf_nextInput {s : State} {r : CycleRecord} (runs : Runs s r) :
    sampleOf (nextInput s) = recordSample r := by
  obtain ⟨-, -, -, record⟩ := runs
  obtain ⟨-, rfl⟩ := decodeRecord_ok.mp record
  rfl

/-- A cycle's command has the opcode of the cycle's input. -/
theorem opcode_of_issues {s : State} {r : CycleRecord} {i : Instr} (issues : Issues s r i) :
    opcField (commandWord i) = opcodeOf (nextInput s) := by
  obtain ⟨runs, decoded⟩ := issues
  rw [commandWord_of_decodeCommand decoded]
  exact cmd_field_of_runs runs (by decide)

/-- R140, R146, R148: a cycle without MASK and CLEAR adds its sample to those that have arrived. -/
theorem Captured.step {xs : List Byte} {s t : State} (h : Captured xs s)
    (keeps : keepsCapture (nextInput s) = true) (ht : step s = .next t) :
    Captured (xs ++ (sampleOf (nextInput s)).toList) t := by
  obtain ⟨rstN, notMask, notClear⟩ := keepsCapture_iff.mp keeps
  obtain ⟨r, runs⟩ := runs_of_step_next ht rstN
  obtain ⟨i, w, issues, hw, rfl⟩ := step_next_of_runs runs ht
  rw [← opcode_of_issues issues] at notMask notClear
  rw [sampleOf_nextInput runs]
  exact (h.of_effect (effect_of_exec hw) (decodeCommand_isCommand issues.2)
    (by rintro rfl; exact notMask rfl) (by rintro rfl; exact notClear rfl)).cycleEnd

/-! ## Runs -/

theorem samplesOf_cons (x : CycleInput) (xs : List CycleInput) :
    samplesOf (x :: xs) = (sampleOf x).toList ++ samplesOf xs := by
  rw [samplesOf]
  cases sampleOf x <;> rfl

theorem nextInput_of_cons {s : State} {x : CycleInput} {rest : List CycleInput}
    (inputs : s.inputs = x :: rest) : nextInput s = x := by
  simp [nextInput, inputs]

/-- The inputs `ins`, run one after another, add their samples in their order. -/
theorem Captured.run {xs : List Byte} {ins rest : List CycleInput} {s t : State} (h : Captured xs s)
    (inputs : s.inputs = ins ++ rest) (keeps : ∀ x ∈ ins, keepsCapture x = true)
    (ht : run ins.length s = .next t) : Captured (xs ++ samplesOf ins) t := by
  induction ins generalizing xs s with
  | nil =>
    obtain rfl := Host.Outcome.next.inj ht
    rwa [samplesOf, List.append_nil]
  | cons x ins ih =>
    obtain ⟨u, hu, ht⟩ := run_succ_next.mp ht
    obtain ⟨now, later⟩ := List.forall_mem_cons.mp keeps
    have first : nextInput s = x := nextInput_of_cons inputs
    have captured := h.step (first ▸ now) hu
    rw [first] at captured
    rw [samplesOf_cons, ← List.append_assoc]
    exact ih captured (by rw [step_inputs hu, inputs]; rfl) later ht

/-- The premises of R146 and R148 as this development's: a run over the next `k` inputs. -/
theorem captured_of_run {s t : State} {k : Nat} (cursor : s.cursor = 0) (unmasked : s.masked = false)
    (nothingHeld : s.pendV = false) (listed : k ≤ s.inputs.length)
    (keeps : ∀ x ∈ s.inputs.take k, keepsCapture x = true) (ht : run k s = .next t) :
    Captured (samplesOf (s.inputs.take k)) t := by
  have length : (s.inputs.take k).length = k := List.length_take_of_le listed
  exact (captured_nil cursor unmasked nothingHeld).run (List.take_append_drop k s.inputs).symm keeps
    (length.symm ▸ ht)

/-- R7: no cycle changes the parameters. -/
theorem step_cfg {s t : State} (ht : step s = .next t) : t.cfg = s.cfg := by
  obtain ⟨-, rfl⟩ | ⟨-, r, i, w, command, hw, rfl⟩ := step_cases ht
  · rfl
  · rw [cycleEnd_cfg]
    exact (hw.commandFrame command).cfg

theorem run_cfg {k : Nat} {s t : State} (ht : run k s = .next t) : t.cfg = s.cfg :=
  run_induction (P := fun u => u.cfg = s.cfg) (fun _ _ kept hu => (step_cfg hu).trans kept) k s t rfl ht

/-- Settles O50: the cursor counts the samples captured up to the store's size; a full store is stable. -/
theorem fullnessLaw : Obligations.FullnessLaw := by
  refine ⟨fun s t d unmasked room ht => ?_,
    fun s t k cursor unmasked nothingHeld listed keeps ht => ?_, fun s t r runs isFull ht notClear => ?_⟩
  · obtain rfl := Host.Outcome.next.inj ((exec_completion d s).symm.trans ht)
    exact completed_cursor_of_accepted d unmasked room
  · have captured := captured_of_run cursor unmasked nothingHeld listed keeps ht
    rw [← run_cfg ht]
    exact ⟨captured.cursor, captured.full_iff_length⟩
  · obtain ⟨-, -, stays⟩ := fullStoreIsStable s t r runs isFull ht notClear
    exact stays

/-- Settles O51: each cell below the cursor holds its sample, and a full store's cursor is above `WIDTH`. -/
theorem captureContent : Obligations.CaptureContent := by
  intro s t k cursor unmasked nothingHeld listed keeps ht
  have captured := captured_of_run cursor unmasked nothingHeld listed keeps ht
  refine ⟨captured.cells, fun isFull j hj => captured.cells j ?_⟩
  rw [← run_cfg ht] at hj
  exact hj.trans_lt (full_iff.mp isFull)

end Sys2Proof.Proofs
end

section
/-! PROOF. The row function, MAPROW and SEGMENT (spec/43_pixel_mapper.md R160 to R164). -/

namespace Sys2Proof.Proofs

open Sys2Proof.Machine Sys2Proof.Safety

/-! ## MAPROW -/

theorem zextHalf_toNat (h : Half) : (zextHalf h).toNat = h.toNat :=
  BitVec.toNat_setWidth_of_le (by decide)

/-- Settles O29: the row fits 16 bits, and the answer extends it by zeros. -/
theorem maprowGivesRow : Obligations.MaprowGivesRow := by
  intro s d legal
  refine ⟨_, exec_maprow_next.mpr rfl, ?_, sameButResponse_respond _ s⟩
  have resp := zextHalf_toNat (rowHalf s.cfg d)
  have fits := rowHalf_toNat_add legal d
  simp only [respond]
  omega

/-! ## The row function -/

/-- R160: under a legal configuration the row is an exact difference. -/
theorem row_add {c : Config} (legal : legalConfig c = true) (d : Byte) :
    row c d + d.toNat / 2 = c.plotBottom := by
  obtain ⟨-, -, ⟨bottom_ge, -⟩, -⟩ := legalConfig_iff_bounds.mp legal
  have sample := d.isLt
  exact Nat.sub_add_cancel (by omega)

/-- R160: of a sample only its half counts. -/
theorem row_eq_of_half_eq (c : Config) {d e : Byte} (half : d.toNat / 2 = e.toNat / 2) :
    row c d = row c e :=
  congrArg (c.plotBottom - ·) half

/-- R163 (c): the two samples `2k` and `2k + 1` have one half. -/
theorem row_even_eq_row_odd (c : Config) {k : Nat} (bound : k ≤ 127) :
    row c (BitVec.ofNat 8 (2 * k)) = row c (BitVec.ofNat 8 (2 * k + 1)) := by
  apply row_eq_of_half_eq
  rw [BitVec.toNat_ofNat, BitVec.toNat_ofNat, Nat.mod_eq_of_lt (by omega), Nat.mod_eq_of_lt (by omega)]
  omega

/-- R163 (c): row `y` is that of the sample `2 * (PLOT_BOTTOM - y)`. -/
theorem exists_row_eq_iff {c : Config} (legal : legalConfig c = true) (y : Nat) :
    (∃ d : Byte, row c d = y) ↔ c.plotBottom - 127 ≤ y ∧ y ≤ c.plotBottom := by
  constructor
  · rintro ⟨d, rfl⟩
    have exact_row := row_add legal d
    have sample := d.isLt
    omega
  · rintro ⟨lower, upper⟩
    refine ⟨BitVec.ofNat 8 (2 * (c.plotBottom - y)), ?_⟩
    rw [row, BitVec.toNat_ofNat, Nat.mod_eq_of_lt (by omega)]
    omega

/-- Settles O56: each law from the half of the sample. -/
theorem rowLaws : Obligations.RowLaws := by
  intro c legal
  obtain ⟨-, -, -, span, -⟩ := legalConfig_iff_bounds.mp legal
  refine ⟨⟨rfl, rfl⟩, ⟨rfl, rfl, Nat.le_sub_of_add_le span⟩, fun d e le => ?_,
    fun k => row_even_eq_row_odd c, exists_row_eq_iff legal, fun c' d same => ?_⟩
  · exact Nat.sub_le_sub_left (Nat.div_le_div_right le) _
  · rw [row, row, same]

/-! ## SEGMENT -/

theorem exec_segment_of_above {s : State} {k : Half} (above : s.cfg.width < k.toNat + 2) :
    exec (.segment k) s = .fault (.segIndex s.cycle (commandWord (.segment k))) :=
  if_pos above

/-- Settles O30: by the pair's bound. -/
theorem segmentPacksLine : Obligations.SegmentPacksLine := by
  refine fun s k legal => ⟨fun pair => ?_, fun above => ?_⟩
  · obtain ⟨x0, x1, y0, y1⟩ := segmentResponse_line legal pair
    exact ⟨_, exec_segment_next.mpr ⟨pair, rfl⟩, x0, x1, y0, y1, sameButResponse_respond _ s⟩
  · rw [exec_segment_of_above above, commandWord, makeWord_eq]
    rfl

theorem exec_segment_completes_iff {s : State} {k : Half} :
    (∃ t, exec (.segment k) s = .next t) ↔ k.toNat + 2 ≤ s.cfg.width := by
  simp only [exec_segment_next, exists_and_left, exists_eq, and_true]

/-- R162: a segment that completes answers its own two columns. -/
theorem segment_columns {s t : State} {k : Half} (legal : legalConfig s.cfg = true)
    (ht : exec (.segment k) s = .next t) :
    k.toNat + 2 ≤ s.cfg.width ∧ (t.out.resp.extractLsb' 0 16).toNat = k.toNat
      ∧ (t.out.resp.extractLsb' 16 16).toNat = k.toNat + 1 := by
  obtain ⟨pair, rfl⟩ := exec_segment_next.mp ht
  obtain ⟨x0, x1, -⟩ := segmentResponse_line legal pair
  exact ⟨pair, x0, x1⟩

/-- R164: every column starts the pair of its own index, but the last one, which ends the pair before. -/
theorem exists_pair_of_column {w col : Nat} (two_le : 2 ≤ w) (w_le : w ≤ 65535) (bound : col ≤ w - 1) :
    ∃ k : Half, k.toNat + 2 ≤ w ∧ (k.toNat = col ∨ k.toNat + 1 = col) := by
  obtain inner | last : col + 2 ≤ w ∨ col = w - 1 := by omega
  · exact ⟨BitVec.ofNatLT col (by omega), inner, .inl rfl⟩
  · refine ⟨BitVec.ofNatLT (col - 1) (by omega), ?_, .inr ?_⟩ <;> rw [BitVec.toNat_ofNatLT] <;> omega

/-- Settles O57: a column within the width belongs to a pair that completes, and its answer names it. -/
theorem segmentsCoverTheColumns : Obligations.SegmentsCoverTheColumns := by
  intro s legal
  obtain ⟨⟨width_ge, width_le⟩, -⟩ := legalConfig_iff_bounds.mp legal
  refine ⟨fun k => exec_segment_completes_iff.trans (Nat.le_sub_iff_add_le width_ge).symm,
    fun col => ⟨fun bound => ?_, ?_⟩⟩
  · obtain ⟨k, pair, ends⟩ := exists_pair_of_column width_ge width_le bound
    obtain ⟨t, ht⟩ := exec_segment_completes_iff.mpr pair
    obtain ⟨-, x0, x1⟩ := segment_columns legal ht
    exact ⟨k, t, ht, by rwa [x0, x1]⟩
  · rintro ⟨k, t, ht, ends⟩
    obtain ⟨pair, x0, x1⟩ := segment_columns legal ht
    omega

end Sys2Proof.Proofs
end

section
/-! PROOF. The buttons: the two edges, and the pins of every cycle (spec/44_input_controller.md R180 to
R183, R186). -/

namespace Sys2Proof.Proofs

open Sys2Proof.Machine Sys2Proof.Safety

/-! ## The edges' own effects -/

/-- What ADVANCE and CONFIRM leave unchanged: all but `SELECTOR` and `VIEW`. -/
theorem same_of_menu_write (s : State) (n : Nat) (v : View) :
    let t := { s with selector := n, view := v }
    SameStore s t ∧ SameCursorMask s t ∧ SameLatch s t ∧ SameClock s t ∧ SamePins s t ∧ SameRest s t :=
  ⟨fun _ => rfl, ⟨rfl, rfl⟩, ⟨rfl, rfl⟩, ⟨rfl, rfl, rfl⟩, ⟨rfl, rfl⟩,
    ⟨rfl, rfl, rfl, rfl, rfl, rfl, rfl, rfl, rfl, rfl⟩⟩

/-- R182: CONFIRM goes to the menu from the scope only. -/
theorem toggled_eq_menu_iff {v : View} : toggled v = .menu ↔ v = .scope := by
  cases v <;> decide

theorem toggled_ne (v : View) : toggled v ≠ v := by
  cases v <;> decide

/-- Settles O34: `SELECTOR` is all that EDGE_A writes, and `VIEW` all that EDGE_B writes. -/
theorem edgesMoveMenu : Obligations.EdgesMoveMenu :=
  fun s =>
    ⟨⟨_, exec_edgeA s, rfl, rfl, rfl, same_of_menu_write s _ s.view⟩,
      ⟨_, exec_edgeB s, toggled_eq_menu_iff, rfl, rfl, same_of_menu_write s s.selector _⟩⟩

/-! ## One cycle -/

/-- R180: the two active edges. -/
theorem edgeSeen_iff {pol : Polarity} {prev pin : Bool} :
    edgeSeen pol prev pin = true ↔
      (pol = .rising ∧ prev = false ∧ pin = true) ∨ (pol = .falling ∧ prev = true ∧ pin = false) := by
  cases pol <;> simp [edgeSeen]

/-- No command writes what phase 3 reads: the pins' history, `SELECTOR` and `VIEW`. -/
theorem Effect.keeps_buttons {i : Instr} {s w : State} (h : Effect s i w) (command : i.isCommand = true) :
    SamePins s w ∧ SameMenu s w := by
  cases h with
  | answer | period | start | mask | unmask | clear => exact ⟨⟨rfl, rfl⟩, ⟨rfl, rfl⟩⟩
  | completion | advance | confirm => cases command

/-- R180 to R182 at the end of a cycle: the history takes the levels, and the edges between the old history
and the levels move the menu. -/
theorem step_buttons {s t : State} {r : CycleRecord} (runs : Runs s r) (ht : step s = .next t) :
    t.prevA = r.pinA ∧ t.prevB = r.pinB
    ∧ t.selector =
        (if edgeSeen s.cfg.polA s.prevA r.pinA then advanced s.cfg.nItems s.selector else s.selector)
    ∧ t.view = (if edgeSeen s.cfg.polB s.prevB r.pinB then toggled s.view else s.view) := by
  obtain ⟨i, w, ⟨-, decoded⟩, hw, rfl⟩ := step_next_of_runs runs ht
  have effect := effect_of_exec hw
  have command := decodeCommand_isCommand decoded
  obtain ⟨cfg, -⟩ := (effect.commandFrame command).of_popInput
  obtain ⟨⟨prevA, prevB⟩, selector, view⟩ := effect.keeps_buttons command
  refine ⟨cycleEnd_prevA .., cycleEnd_prevB .., ?_, ?_⟩
  · rw [cycleEnd_selector, cfg, prevA, selector]
    rfl
  · rw [cycleEnd_view, cfg, prevB, view]
    rfl

/-- Settles O52: the active edge spelled out by polarity, history and level. -/
theorem buttonsActEveryCycle : Obligations.ButtonsActEveryCycle := by
  intro s t r runs ht
  obtain ⟨prevA, prevB, selector, view⟩ := step_buttons runs ht
  simp only [edgeSeen_iff] at selector view
  refine ⟨prevA, prevB, selector, fun edge => ?_, fun noEdge => ?_⟩
  · rw [view, if_pos edge]
    exact toggled_ne _
  · rw [view, if_neg noEdge]

end Sys2Proof.Proofs
end

section
/-! PROOF. The events of a run: each pin raises one for each active edge of its levels, without debounce
(spec/44_input_controller.md R183, R184). -/

namespace Sys2Proof.Proofs

open Sys2Proof.Machine Sys2Proof.Safety

/-! ## The edges of a sequence of levels -/

/-- How many active edges a pin makes that goes from the level `prev` through the levels of the list. -/
def edgeCount (pol : Polarity) (prev : Bool) : List Bool → Nat
  | [] => 0
  | level :: levels => (edgeSeen pol prev level).toNat + edgeCount pol level levels

/-- R184: one pulse is one event, whatever the polarity. -/
theorem edgeCount_pulse (pol : Polarity) (levels : List Bool) :
    edgeCount pol true (false :: true :: levels) = edgeCount pol true levels + 1 := by
  cases pol <;> simp [edgeCount, edgeSeen, Nat.add_comm]

/-- R184: the edges of the first `m` levels of a bounce, the pin high before it. -/
theorem edgeCount_bounceLevels (pol : Polarity) {n m : Nat} (h : m ≤ 2 * n) :
    edgeCount pol true ((bounceLevels n).take m) = if pol = .rising then m / 2 else (m + 1) / 2 := by
  induction n generalizing m with
  | zero =>
    obtain rfl : m = 0 := by omega
    cases pol <;> rfl
  | succ n ih =>
    match m with
    | 0 | 1 => cases pol <;> rfl
    | m + 2 =>
      rw [bounceLevels, List.take_succ_cons, List.take_succ_cons, edgeCount_pulse, ih (by omega)]
      split <;> omega

theorem pinLevels_eq_map (bit : Nat) (ins : List CycleInput) :
    pinLevels bit ins = ins.map (·.word.getLsbD bit) := by
  induction ins with
  | nil => rfl
  | cons x ins ih => rw [pinLevels, ih, List.map_cons]

/-- The levels of the first `m` inputs, where those of the first `k` are a bounce. -/
theorem edgeCount_of_bounce (pol : Polarity) {bit n m : Nat} {ins : List CycleInput} (h : m ≤ 2 * n)
    (bounce : pinLevels bit (ins.take (2 * n)) = bounceLevels n) :
    edgeCount pol true (pinLevels bit (ins.take m))
      = if pol = .rising then m / 2 else (m + 1) / 2 := by
  rw [← edgeCount_bounceLevels pol h, ← bounce]
  simp only [pinLevels_eq_map, ← List.map_take, List.take_take, Nat.min_eq_left h]

/-! ## Runs -/

/-- R72: a cycle's pin levels are those of its input. -/
theorem pins_of_runs {s : State} {r : CycleRecord} (runs : Runs s r) :
    r.pinA = (nextInput s).word.getLsbD 41 ∧ r.pinB = (nextInput s).word.getLsbD 42 := by
  obtain ⟨-, -, -, record⟩ := runs
  obtain ⟨-, rfl⟩ := decodeRecord_ok.mp record
  exact ⟨rfl, rfl⟩

/-- One event more before `k` others. -/
theorem iterate_ite_eq {α : Type} (f : α → α) (b : Bool) (k : Nat) (x : α) :
    f^[k] (if b then f x else x) = f^[b.toNat + k] x := by
  cases b with
  | false => rw [Bool.toNat_false, Nat.zero_add]; rfl
  | true => rw [Bool.toNat_true, Nat.add_comm, Function.iterate_succ_apply]; rfl

/-- Over inputs out of reset, whatever their commands and completions, every active edge on A is one ADVANCE
and every one on B one CONFIRM. -/
theorem run_buttons {ins rest : List CycleInput} {s t : State} (inputs : s.inputs = ins ++ rest)
    (outOfReset : ∀ x ∈ ins, x.rstN = true) (ht : run ins.length s = .next t) :
    t.selector = (advanced s.cfg.nItems)^[edgeCount s.cfg.polA s.prevA (pinLevels 41 ins)] s.selector
    ∧ t.view = toggled^[edgeCount s.cfg.polB s.prevB (pinLevels 42 ins)] s.view := by
  induction ins generalizing s with
  | nil =>
    obtain rfl := Host.Outcome.next.inj ht
    exact ⟨rfl, rfl⟩
  | cons x ins ih =>
    obtain ⟨u, hu, ht⟩ := run_succ_next.mp ht
    obtain ⟨now, later⟩ := List.forall_mem_cons.mp outOfReset
    have first : nextInput s = x := nextInput_of_cons inputs
    obtain ⟨r, runs⟩ := runs_of_step_next hu (first ▸ now)
    obtain ⟨pinA, pinB⟩ := first ▸ pins_of_runs runs
    obtain ⟨prevA, prevB, selector, view⟩ := step_buttons runs hu
    obtain ⟨selector', view'⟩ := ih (by rw [step_inputs hu, inputs]; rfl) later ht
    rw [step_cfg hu, prevA, selector, iterate_ite_eq, pinA] at selector'
    rw [step_cfg hu, prevB, view, iterate_ite_eq, pinB] at view'
    exact ⟨selector', view'⟩

/-- Settles O53: the run's first `m` inputs make the edges of the first `m` levels of the bounce. -/
theorem bounceLaw : Obligations.BounceLaw := by
  intro s t n m within listed outOfReset ht
  have length : (s.inputs.take m).length = m := List.length_take_of_le (within.trans listed)
  obtain ⟨selector, view⟩ := run_buttons (List.take_append_drop m s.inputs).symm
    (fun x hx => outOfReset x ((List.take_sublist_take_left within).subset hx)) (length.symm ▸ ht)
  refine ⟨fun high bounce => ?_, fun high bounce => ?_⟩
  · rw [selector, high, edgeCount_of_bounce _ within bounce]
  · rw [view, high, edgeCount_of_bounce _ within bounce]

end Sys2Proof.Proofs
end

section
/-! PROOF. The menu: the range lines after each cycle, and the highlighted row (spec/45_menu_range.md R200
to R203). -/

namespace Sys2Proof.Proofs

open Sys2Proof.Machine Sys2Proof.Safety

/-! ## The range lines -/

/-- R202 (b): the update reads `SELECTOR` and the parameters, never the range it replaces. -/
theorem rangeUpdate_idempotent (s : State) : rangeUpdate (rangeUpdate s) = rangeUpdate s := by
  obtain ⟨selected, listed, set⟩ | ⟨-, kept⟩ := rangeUpdate_cases s
  · rw [set]
    exact if_pos ⟨selected, listed⟩
  · rw [kept, kept]

/-- R200 at the end of a cycle: no command writes `RANGE`, so phase 4 updates the range that the cycle
started with. -/
theorem step_range {s t : State} (ht : step s = .next t) (hn : (nextInput s).rstN = true) :
    t.range =
      if 1 ≤ t.selector ∧ t.selector ≤ t.cfg.nItems then onehot (t.selector - 1) else s.range := by
  obtain ⟨r, i, w, command, hw, rfl⟩ := step_cases_of_rstN ht hn
  obtain ⟨-, -, -, -, range, -⟩ := (hw.commandFrame command).of_popInput
  rw [cycleEnd_range, cycleEnd_cfg, range]

theorem step_range_of_selected {s t : State} (ht : step s = .next t) (hn : (nextInput s).rstN = true)
    (selected : 1 ≤ t.selector) (listed : t.selector ≤ t.cfg.nItems) :
    t.range = onehot (t.selector - 1) :=
  (step_range ht hn).trans (if_pos ⟨selected, listed⟩)

theorem step_range_of_selector_zero {s t : State} (ht : step s = .next t)
    (hn : (nextInput s).rstN = true) (unselected : t.selector = 0) : t.range = s.range :=
  (step_range ht hn).trans (if_neg fun ⟨selected, _⟩ => by omega)

/-- R202 (c) as an invariant: before the first ADVANCE since power-on the range is `RANGE_RESET`. -/
def RangeUntouched (s : State) : Prop := s.selector = 0 → s.range = s.cfg.rangeReset

/-- A reset cycle sets `RANGE_RESET` again; out of reset a `SELECTOR` of 0 was 0 before (R42 (f)). -/
theorem rangeUntouched_step {s t : State} (hs : RangeUntouched s) (ht : step s = .next t) :
    RangeUntouched t := by
  intro unselected
  cases hn : (nextInput s).rstN with
  | true =>
    have unselected_s : s.selector = 0 := by
      by_contra selected
      have := one_le_selector_step ht hn (Nat.one_le_iff_ne_zero.mpr selected)
      omega
    rw [step_range_of_selector_zero ht hn unselected, hs unselected_s, step_cfg ht]
  | false =>
    obtain ⟨-, rfl⟩ | ⟨_, _, _, ⟨⟨-, -, outOfReset, -⟩, -⟩, -⟩ := step_next_cases ht
    · rfl
    · simp [hn] at outOfReset

/-- Settles O54: phase 4 sets the line of the selector that the cycle ends with; the rest are invariants of
every cycle. -/
theorem rangeFollowsSelector : Obligations.RangeFollowsSelector := by
  refine ⟨fun s t r ⟨_, _, hn, _⟩ ht => ⟨fun selected listed b hb => ?_,
    step_range_of_selector_zero ht hn⟩, rangeUpdate_idempotent, fun c e ins k t ht unselected => ?_,
    fun s t hs ht => isOnehot_iff_bits.mp (stepKeepsRegisterInvariant s t hs ht).range_onehot⟩
  · rw [step_range_of_selected ht hn selected listed]
    exact onehot_getLsbD hb
  · have untouched : RangeUntouched t :=
      run_induction (fun _ _ => rangeUntouched_step) k _ t (fun _ => rfl) ht
    rw [untouched unselected, run_cfg ht]
    rfl

/-! ## The highlighted row -/

/-- R201: a menu row's answer. -/
theorem exec_hilite_of_below {s : State} {r : Half} (below : r.toNat < s.cfg.nItems) :
    exec (.hilite r) s = .next (respond (if s.selector = r.toNat + 1 then 1#64 else 0#64) s) :=
  exec_hilite_next.mpr ⟨below, rfl⟩

theorem exec_hilite_of_above {s : State} {r : Half} (above : s.cfg.nItems ≤ r.toNat) :
    exec (.hilite r) s = .fault (.rowIndex s.cycle (commandWord (.hilite r))) :=
  if_pos above

/-- Settles O31: by the row's bound. -/
theorem hiliteAnswersSelectedRow : Obligations.HiliteAnswersSelectedRow := by
  refine fun s r => ⟨fun below => ?_, fun above => ?_⟩
  · exact ⟨_, exec_hilite_of_below below, rfl, sameButResponse_respond _ s⟩
  · rw [exec_hilite_of_above above, commandWord, makeWord_eq]
    rfl

/-- Settles O55: `SELECTOR` is at most 32, so the row before it is an operand of HILITE; of every other row
`SELECTOR` is not the successor. -/
theorem highlightLaw : Obligations.HighlightLaw := by
  intro s legal selected listed
  obtain ⟨-, ⟨-, items_le⟩, -⟩ := legalConfig_iff_bounds.mp legal
  obtain ⟨k, row⟩ : ∃ k : Half, k.toNat = s.selector - 1 :=
    ⟨BitVec.ofNatLT (s.selector - 1) (by omega), rfl⟩
  refine ⟨⟨k, row, _, exec_hilite_of_below (by omega), if_pos ?_⟩,
    fun r below other => ⟨_, exec_hilite_of_below below, if_neg ?_⟩⟩
  · omega
  · omega

end Sys2Proof.Proofs
end

section
/-! PROOF. Where a run ends: what a fault records and leaves, what causes each, and the inputs that are
refused (spec/60_exceptions.md R230 to R235). -/

namespace Sys2Proof.Proofs

open Sys2Proof.Machine Sys2Proof.Safety

/-! ## What a fault leaves -/

/-- R231: a recorded fault is the answer of every later cycle. -/
theorem step_of_fault {s : State} {f : Fault} (faulted : s.fault = some f) : step s = .fault f := by
  simp [step, runCycle, faulted]

theorem settle_of_step_fault {s : State} {f : Fault} (h : step s = .fault f) :
    settle s = recordFault f s := by
  simp [settle, h]

/-- Recording the fault that a state already records changes nothing. -/
theorem recordFault_eq_self {s : State} {f : Fault} (faulted : s.fault = some f) : recordFault f s = s := by
  rw [recordFault, ← faulted]

theorem settle_of_fault {s : State} {f : Fault} (faulted : s.fault = some f) : settle s = s :=
  (settle_of_step_fault (step_of_fault faulted)).trans (recordFault_eq_self faulted)

theorem settleMany_of_fault {s : State} {f : Fault} (faulted : s.fault = some f) (k : Nat) :
    settleMany k s = s := by
  induction k with
  | zero => rfl
  | succ k ih => rw [settleMany, settle_of_fault faulted, ih]

/-- Settles O12: a faulted state is a fixed point of `settle`, and a faulting cycle leads to one. -/
theorem faultStopsForGood : Obligations.FaultStopsForGood := by
  refine ⟨fun s f faulted k => ⟨?_, settleMany_of_fault faulted k⟩, fun s f _ faults k => ?_, powerOn_fault⟩
  · rw [run_succ, step_of_fault faulted, andThen_fault]
  · rw [settleMany, settle_of_step_fault faults, settleMany_of_fault (recordFault_fault f s)]

/-! ## What causes a fault -/

/-- R100: the phases after a command never fault, so a cycle's fault is its command's. -/
theorem step_fault_iff_exec {s : State} {r : CycleRecord} {i : Instr} {f : Fault} (issues : Issues s r i) :
    step s = .fault f ↔ exec i s = .fault f := by
  rw [step_of_issues issues, ← exec_popInput_fault]
  cases exec i (popInput s) <;> simp

/-- R230, R232: what every command's fault records; codes 1 and 2 are the decoding's. -/
theorem exec_fault_record {i : Instr} {s : State} {f : Fault} (h : exec i s = .fault f) :
    faultCycle f = s.cycle ∧ faultWord f = commandWord i ∧ 3 ≤ faultCode f := by
  obtain ⟨-, rfl⟩ | ⟨-, -, -, rfl⟩ | ⟨_, -, -, rfl⟩ | ⟨_, -, -, rfl⟩ | ⟨_, -, -, rfl⟩ | ⟨_, -, -, rfl⟩ :=
    exec_fault_cases h
  all_goals exact ⟨rfl, rfl, by simp [faultCode]⟩

/-- R232's table, codes 3 to 8. -/
theorem exec_fault_cause {i : Instr} {s : State} {f : Fault} (h : exec i s = .fault f) :
    (faultCode f = 3 ∧ i = .cfgper 0#16)
    ∨ (faultCode f = 4 ∧ i = .start ∧ s.running = false ∧ s.period = 0#16)
    ∨ (faultCode f = 5 ∧ ∃ a, i = .rdbuf a ∧ s.cfg.width < a.toNat)
    ∨ (faultCode f = 6 ∧ ∃ k, i = .segment k ∧ s.cfg.width < k.toNat + 2)
    ∨ (faultCode f = 7 ∧ ∃ r, i = .hilite r ∧ s.cfg.nItems ≤ r.toNat)
    ∨ (faultCode f = 8 ∧ ∃ idx, i = .rdreg idx ∧ 4 < idx.toNat) := by
  obtain ⟨zero, rfl⟩ | ⟨start, stopped, unconfigured, rfl⟩ | ⟨a, read, above, rfl⟩ | ⟨k, read, above, rfl⟩
    | ⟨r, read, above, rfl⟩ | ⟨idx, read, above, rfl⟩ := exec_fault_cases h
  · exact .inl ⟨rfl, zero⟩
  · exact .inr (.inl ⟨rfl, start, stopped, unconfigured⟩)
  · exact .inr (.inr (.inl ⟨rfl, a, read, above⟩))
  · exact .inr (.inr (.inr (.inl ⟨rfl, k, read, above⟩)))
  · exact .inr (.inr (.inr (.inr (.inl ⟨rfl, r, read, above⟩))))
  · exact .inr (.inr (.inr (.inr (.inr ⟨rfl, idx, read, above⟩))))

/-- R230, R232: a cycle's fault records the cycle and its word, and is the decoding's or its command's. -/
theorem step_fault_cases {s : State} {r : CycleRecord} {f : Fault} (runs : Runs s r)
    (h : step s = .fault f) :
    faultCycle f = s.cycle ∧ faultWord f = r.cmd
    ∧ ((faultCode f = 1 ∧ decodeCommand r.cmd = .error .opcode)
      ∨ (faultCode f = 2 ∧ decodeCommand r.cmd = .error .rsvBits)
      ∨ (3 ≤ faultCode f ∧ ∃ i, decodeCommand r.cmd = .ok i ∧ exec i s = .fault f)) := by
  cases decoded : decodeCommand r.cmd with
  | error e =>
    obtain rfl := Host.Outcome.fault.inj ((step_of_bad_word runs decoded).symm.trans h)
    cases e with
    | opcode => exact ⟨rfl, rfl, .inl ⟨rfl, rfl⟩⟩
    | rsvBits => exact ⟨rfl, rfl, .inr (.inl ⟨rfl, rfl⟩)⟩
  | ok i =>
    have faults := (step_fault_iff_exec ⟨runs, decoded⟩).mp h
    obtain ⟨cycle, word, code⟩ := exec_fault_record faults
    exact ⟨cycle, word.trans (commandWord_of_decodeCommand decoded), .inr (.inr ⟨code, i, rfl, faults⟩)⟩

/-- Settles O37: a word's fault comes from its decoding or from its command, and each has its cause. -/
theorem faultsRecordTheirCommand : Obligations.FaultsRecordTheirCommand := by
  refine ⟨fun s r runs => ⟨step_of_bad_word runs, step_of_bad_word runs, fun i f decoded =>
    (step_fault_iff_exec ⟨runs, decoded⟩).mpr⟩, fun s r f => step_fault_cases, fun s i f h => ?_⟩
  obtain ⟨cycle, word, -⟩ := exec_fault_record h
  exact ⟨cycle, word, exec_fault_cause h⟩

/-! ## What is refused -/

theorem step_of_illegalConfig {s : State} (noFault : s.fault = none) (illegal : legalConfig s.cfg = false) :
    step s = .refused .illegalConfig := by
  simp [step, runCycle, noFault, illegal]

theorem step_of_notARecord {s : State} (noFault : s.fault = none) (legal : legalConfig s.cfg = true)
    (notRecord : decodeRecord (nextInput s).word = .error .highBits) : step s = .refused .notARecord := by
  simp [step, runCycle, noFault, legal, notRecord]

/-- Settles O13: the checks in the step's order; R72 says which words are no record. -/
theorem unusableInputsRefused : Obligations.UnusableInputsRefused :=
  fun _ noFault => ⟨step_of_illegalConfig noFault, fun legal highBits =>
    step_of_notARecord noFault legal (decodeRecord_error.mpr highBits)⟩

end Sys2Proof.Proofs
end

section
/-! PROOF. What a reset cycle forces (spec/70_reset_and_hazards.md R270). -/

namespace Sys2Proof.Proofs

open Sys2Proof.Machine Sys2Proof.Safety

/-- R270's table, under every configuration: `FULL` is 0 because the cursor is. -/
theorem poweredOn_powerOn (c : Config) (e : Nat) (ins : List CycleInput) :
    PoweredOn (State.powerOn c e ins) := by
  have notFull : full (State.powerOn c e ins) = false := not_full_iff.mpr (Nat.zero_le _)
  simp [PoweredOn, notFull, readMemory]

/-- R270 says nothing of the registered outputs. -/
theorem poweredOn_driveOutputs {t : State} (h : PoweredOn t) (f v : Bool) (r : Word) :
    PoweredOn (driveOutputs f v r t) := by
  have sameFull : full (driveOutputs f v r t) = full t := rfl
  simpa [PoweredOn, sameFull] using h

theorem poweredOn_resetCycle (s : State) : PoweredOn (resetCycle s) :=
  poweredOn_driveOutputs (poweredOn_powerOn _ _ _) _ _ _

theorem resetCycle_cfg (s : State) : (resetCycle s).cfg = s.cfg := by
  simp [resetCycle]

/-- Settles O15: a reset cycle is the next power-on with this cycle's registered outputs, whatever the
command and the events. -/
theorem resetForcesPowerOn : Obligations.ResetForcesPowerOn := by
  refine ⟨fun s reset => ⟨_, step_of_reset reset, poweredOn_resetCycle _, ?_⟩,
    fun c e ins => ⟨poweredOn_powerOn c e ins, powerOn_cfg c e ins⟩, poweredOn_powerOn _ _ _⟩
  rw [resetCycle_cfg, popInput_cfg]

end Sys2Proof.Proofs
end
